-- ==== Sys2Proof/Word.lean ====
section
/-!
DEFINITION. The plainest types of the machine's words (00 R7: every multi-byte value is little-endian).
-/

namespace Sys2Proof

/-- One byte of a memory, register block or frame. -/
abbrev Byte := BitVec 8

/-- A 32-bit word: a lane, a counter, a register half. -/
abbrev Word32 := BitVec 32

/-- A 64-bit word: a register of the control range, a broadcast word. -/
abbrev Word64 := BitVec 64

end Sys2Proof
end

