-- ==== Sys2Proof/Syntax.lean ====
section
/-!
DEFINITION. The commands of the block: one constructor of `Instr` for each row of spec/opcode_table.json, in its order,
and the types of their operands. An operand is a place (a tile, a unit, a queue), a value that something outside the step
writes, or what the environment alone knows (log 2).
-/

namespace Sys2Proof

/-! ## Places -/

/-- Tile number (03 R69). -/
abbrev TileId := Fin 128
/-- Hedge number (03 R70). -/
abbrev HedgeId := Fin 8
/-- Stack number (03 R72). -/
abbrev StackId := Fin 8
/-- Privet unit: 64 × stack + pseudo-channel (08 R243). -/
abbrev UnitId := Fin 512
/-- Memory tier: stacks 0 to 7, the board tier 8 (07 R206). -/
abbrev TierId := Fin 9
/-- Briar port: E1, E2, W1, W2 (12 R394). -/
abbrev BriarId := Fin 4
/-- Host port: false A, true B. -/
abbrev PortId := Bool
/-- Partition (10 R340). -/
abbrev PartId := Fin 16
/-- Function of a port (10 R319). -/
abbrev FnId := Fin 16
/-- Queue of the pool. -/
abbrev QueueId := Fin 8192
/-- Sequence of Laurel's table (11 R361). -/
abbrev SeqId := Fin 4096
/-- Engine of a tile: 0 tensor, 1 vector, 2 gather, 3 DMA (04 R138). -/
abbrev EngId := Fin 4

/-! ## Engine commands (04 R115; their encoding is the toolchain's, so the model carries their fields) -/

/-- An address of a command: a base and a signed stride for each enclosing loop level, outermost first (04 R126). -/
structure Addr where
  base : Nat
  strides : List Int
  deriving DecidableEq, Repr

/-- Where a descriptor lies: in the tile's own scratchpad or at a die address (06 R521). -/
inductive DescAt where
  | scratch (a : Nat)
  | die (a : Nat)
  deriving DecidableEq, Repr

/-- The far side of a DIN or DOUT: contiguous, or a window through a transfer descriptor (06 R189). -/
inductive Far where
  | plain (a : Addr)
  | window (d : DescAt)
  deriving DecidableEq, Repr

/-- The combining operations of SCATTER_ADD (06 R198), coded as Briar codes them (12 R404). -/
inductive Comb where
  | addF32 | addI32 | maxF32 | minF32 | maxI32 | minI32 | maxU32 | minU32 | orU32
  deriving DecidableEq, Repr

/-- Relations of VCMP (05 R160). -/
inductive Rel where
  | eq | ne | lt | le | gt | ge
  deriving DecidableEq, Repr

/-- The vector engine's lane operations between registers, less VCVT and VSCALE (05 R160). -/
inductive VOp where
  | add | mul | fma | max | min
  | cmp (r : Rel)
  | sel | exp | rcp | rsqrt | silu | redSum | redMax
  deriving DecidableEq, Repr

/-- Ordering attribute of an asynchronous operation (09 R296). -/
inductive Order where
  | relaxed
  | acquire (scope : Fin 5)
  | release (scope : Fin 5)
  deriving DecidableEq, Repr

/-- The operations of the four engines (04 R120). A Bool named `new…` is the operand's intent bit (04 R130). -/
inductive EngOp where
  /-- TLOAD: element format (its width), its elements, its scale grains for an MX operand. -/
  | tload (fmt : Fin 16) (src scales : Addr) (newSrc newScales : Bool)
  | tswap
  /-- TMUL: the two formats together, rows, the moving operand, both exponents and zero points. -/
  | tmul (mov stat : Fin 16) (rows : Nat) (src scales : Addr) (movExp statExp movZp statZp : BitVec 8)
      (newSrc newScales newStat : Bool)
  | tzero
  /-- TSTORE: rows, target, INT32 or FP32 accumulators, format, rounding, exponent in force, slot, class, multiplier, zero point. -/
  | tstore (rows : Nat) (dst : Addr) (intAcc : Bool) (fmt : Fin 16) (rz : Bool) (exp : BitVec 8)
      (slot : Option (Fin 1024)) (cls : Fin 8) (mult : BitVec 32) (zo : BitVec 8) (newAcc : Bool)
  /-- VLOAD: register, byte offset in it, length, source. -/
  | vload (rd : Fin 32) (off len : Nat) (src : Addr) (newSrc : Bool)
  | vstore (rs : Fin 32) (off len : Nat) (dst : Addr) (newReg : Bool)
  /-- Lane operation; `half` is the 256-lane BF16 form (05 R161). -/
  | vec (op : VOp) (half : Bool) (rd ra rb rc : Fin 32) (newA newB newC : Bool)
  | vcvt (rd ra : Fin 32) (src dst : Fin 16) (srcExp srcZp dstExp : BitVec 8) (rz : Bool) (cls : Fin 8)
      (slot : Option (Fin 1024)) (newA : Bool)
  | vscale (rd ra : Fin 32) (half : Bool) (fmt : Fin 16) (rz : Bool) (newA : Bool)
  | glocal (n : Nat) (idx dst : Addr) (table : DescAt) (newIdx newRow : Bool)
  | gremote (n : Nat) (idx dst : Addr) (table : DescAt) (tally : Fin 8) (ord : Order) (newIdx : Bool)
  /-- SCATTER (`comb` none) and SCATTER_ADD. -/
  | scatter (comb : Option Comb) (n : Nat) (idx src : Addr) (table : DescAt) (tally : Fin 8) (ord : Order) (newIdx : Bool)
  | dlocal (g : Nat) (src dst : Addr) (newSrc : Bool)
  /-- DOUT: grains, source, far side, tally, the tally named at a receiving tile (04 R117), order. -/
  | dout (g : Nat) (src : Addr) (far : Far) (tally : Fin 8) (rtally : Option (Fin 8)) (ord : Order) (newSrc : Bool)
  | din (g : Nat) (dst : Addr) (far : Far) (tally : Fin 8) (ord : Order)
  | loopCount (r : Fin 4) (v : BitVec 16)
  | loop (r : Fin 4) (body : Nat)
  | fin
  deriving DecidableEq, Repr

/-- What the opening command declares (04 R113): the engaged set and each engine's first issue beat. -/
structure Opening where
  engaged : List EngId
  first : List (EngId × Nat)
  deriving DecidableEq, Repr

/-- An engine command (04 R115): span, tally condition "Tn has reached v", operation, and its declaration if it is the opening command. -/
structure EngCmd where
  span : Nat
  cond : Option (Fin 8 × BitVec 16)
  op : EngOp
  opening : Option Opening
  deriving DecidableEq, Repr

/-- A physical error met in a tile's memories (15 R478): a word's or a grain's place, and whether it is correctable. -/
inductive TileErr where
  | scratch (word : Nat) (corr : Bool)
  | cache (set way : Nat) (corr : Bool)
  | vreg (reg grain : Nat)
  | acc (row : Nat)
  | stat
  | shadow
  /-- A command that waits in an engine's queue or loop buffer, by its number of push (15 R482). -/
  | command (e : EngId) (idx : Nat)
  /-- A release tag at the tile's remote port, by its grain. -/
  | tag (grain : Nat)
  | imem (word : Nat) (corr : Bool)
  | dmem (word : Nat) (corr : Bool)
  deriving DecidableEq, Repr

/-! ## What the environment alone knows -/

/-- Physical errors met by a memory access (07 R212, R228): for each of the grain's two protected words, bits flipped in the stored word (32 data bytes
below, metadata above) as 288-bit masks; board tier: the device reports the grain uncorrectable, or corrected, and link retries. -/
structure Upset where
  w0 : Nat := 0
  w1 : Nat := 0
  devBad : Bool := false
  devCorr : Nat := 0
  retries : Nat := 0
  /-- Errors met in the Region Table entry of the access's page (15 R478, R480): 1 corrected, 2 one copy uncorrectable, 3 both. -/
  entry : Fin 4 := 0
  /-- The parity of the grain's release tag is bad (15 R478). -/
  tag : Bool := false
  deriving DecidableEq, Repr

/-- What a packet meets at a router of its way (15 R482): a double-bit error in its header, or bad parity in a word of its data, by the access of its grain. -/
inductive MeshErr where
  | header (router : Nat)
  | payload (txn : Nat)
  deriving DecidableEq, Repr

/-- A register of the module as software names it. -/
inductive RegAt where
  /-- PF BAR0 of a port, at an offset of the die control window (10 R320, R322). -/
  | window (p : PortId) (off : Nat)
  /-- A function block (10 R324). -/
  | block (p : PortId) (f : FnId) (off : Nat)
  /-- An access of an agent of the die that has reached the control range, by its number. -/
  | die (txn : Nat)
  /-- A word of a function's configuration space, by offset (10 R316, R318, R319; log 86). -/
  | config (p : PortId) (f : FnId) (off : Nat)
  deriving DecidableEq, Repr

/-- A grain that lands at a tile: one of the tile's own operation, or a remote write's. -/
inductive LandOf where
  | own (op grain : Nat)
  | remote (txn : Nat)
  deriving DecidableEq, Repr

/-- One conversion of a housekeeping channel (14 R452 to R456): a remote diode's three junction voltages in microvolts, shorted or open; a thermistor input in
microvolts; a voltage-sense channel's 12-bit code, 4096 standing for full scale. -/
structure Sample where
  a : Nat := 0
  b : Nat := 0
  c : Nat := 0
  short : Bool := false
  opened : Bool := false
  deriving DecidableEq, Repr

/-- What the controller reads at the end of a round (14 R457, R468): rails' V, A, W as Q16.16, input power, each fan's tachometer pulses per
minute. -/
structure RoundIn where
  rails : List (Nat × Nat × Nat) := []
  inPower : Nat := 0
  fans : List Nat := []
  deriving DecidableEq, Repr

/-- A march's outcome (15 R485, R486): faulty columns found, and those with no spare left, by macro and column. -/
structure MarchIn where
  columns : Nat := 0
  noSpare : List (Nat × Nat) := []
  deriving DecidableEq, Repr

/-- How the steps of a start come out (16 R499 to R504): the step that fails with its cause, or, with cause 0, the step in which the next command finds it (a
module reset then abandons it); the retention store has an uncorrectable word (R496); parameter copies that fail their CRC, by index and subindex (13 R438);
rows that the memory test of step 7 finds bad, by stack, page, pseudo-channel and bank; the march of step 4, and the fused repairs; entries of the
hard-repair list whose fuse is not confirmed; when, in ms after the start began, each Hedgerow link came up; what its measurement rounds bring (14 R452). -/
structure StartIn where
  fail : Option (Nat × Nat) := none
  storeBad : Bool := false
  paramsLost : List (Nat × Nat) := []
  badRows : List (StackId × Nat × Fin 64 × Fin 16) := []
  march : MarchIn := {}
  fused : Nat := 0
  unconfirmed : List (Fin 16) := []
  linkIn : Option Nat := none
  linkOut : Option Nat := none
  /-- The rounds that end before the start does, in order: the samples of channels 0 to 23, and the round's telemetry. The last one listed stands for those after it. -/
  rounds : List (List Sample × RoundIn) := []
  /-- The slot straps in step 1 of a start from Slumber; none: as last sampled. -/
  straps : Option (BitVec 6) := none
  deriving DecidableEq, Repr

/-- Errors met in Laurel's tables at a boundary (15 R478, R481): corrected words; uncorrectable ones by table (1 directory, 2 sequence, 3 scale, 4 frame), index
and, for a sequence, whether its HANDLE word is lost. -/
structure QuietIn where
  corr : Nat := 0
  lost : List (Nat × Nat × Bool) := []
  deriving DecidableEq, Repr

/-- How far a micro-program runs (08 R257): the store words it fetches at most, and the errors of the store: word, correctable. -/
structure MicroIn where
  words : Nat
  errs : List (Nat × Bool) := []
  deriving DecidableEq, Repr

/-- A unit's work as time lets it go on (08 R247, R249): base-die beats from the command's start; base-die beats spent waiting for tokens since the last; core-die
accesses made at most (none: as many as are left); and errors met: protected words of the stack and words of the buffer. -/
structure UnitIn where
  beats : Nat := 0
  waited : Nat := 0
  accesses : Option Nat := none
  upsets : List (Nat × Upset) := []
  bufErrs : List (Nat × Bool) := []
  deriving DecidableEq, Repr

/-- A request that stands at an arbiter in a beat (03 R104 to R107, 07 R237, R239): requester number, traffic class (0 request or own injection,
1 command or transit, 2 response), partition, direction towards the host, whether it is withdrawn once granted, and the access in flight that it is, if it is one. -/
structure ArbIn where
  req : Nat
  cls : Nat := 0
  part : Option PartId := none
  toHost : Bool := false
  withdrawn : Bool := false
  txn : Option Nat := none
  deriving DecidableEq, Repr

/-- A Briar frame as received (12 R397 to R399): its 1,040 bytes, whether the error-correcting code decoded every codeword that carries it, and how many it corrected. -/
structure FrameIn where
  bytes : List Byte
  fec : Bool := true
  corrected : Nat := 0
  /-- Errors met in the replay buffer as it is read for a replay (15 R478): frame from the oldest, slot in it, and is the word uncorrectable? -/
  bufErrs : List (Nat × Nat × Bool) := []
  deriving DecidableEq, Repr

/-! ## The commands -/

/-- One constructor for each row of spec/opcode_table.json, in its order. -/
inductive Instr where
  /-- POWER_APPLIED (R16). -/
  | powerApplied (mv : Nat) (straps : BitVec 6)
  /-- INPUT_LOW_EXCURSION (R17). -/
  | inputLowExcursion (mv us : Nat)
  /-- INPUT_LOCKOUT (R19). -/
  | inputLockout (tooHigh : Bool)
  /-- ALWAYS_ON_RAIL_LOSS (R37). -/
  | alwaysOnRailLoss
  /-- PWR_PRES_OPEN (R14). -/
  | pwrPresOpen
  /-- PWR_PRES_CLOSE (R14). -/
  | pwrPresClose (straps : BitVec 6)
  /-- MODULE_RESET (R25). -/
  | moduleReset (ns : Nat) (taken : Bool)
  /-- MODULE_RESET_RELEASE (R26). -/
  | moduleResetRelease (straps : BitVec 6)
  /-- COLD_START (R499). -/
  | coldStart (o : StartIn)
  /-- WARM_START (R499). -/
  | warmStart (o : StartIn)
  /-- HEDGEROW_LINK_UP (R40). -/
  | hedgerowLinkUp (up : Bool)
  /-- HEDGEROW_LINK_DOWN (R40). -/
  | hedgerowLinkDown (up : Bool)
  /-- CORE_POWER_GOOD_LOSS (R59). -/
  | corePowerGoodLoss
  /-- REGULATOR_FAULT (R459). -/
  | regulatorFault (rail : Fin 6) (status : BitVec 16)
  /-- TIMEBASE_TICK (R60). -/
  | timebaseTick
  /-- CHANNEL_CONVERSION (R452). -/
  | channelConversion (ch : Fin 24) (x : Sample)
  /-- MEASUREMENT_ROUND_END (R452). -/
  | measurementRoundEnd (r : RoundIn)
  /-- IDLE_ENTER (R466). -/
  | idleEnter
  /-- PRIVET_DOZE_ENTER (R467). -/
  | privetDozeEnter (k : StackId)
  /-- PRIVET_DOZE_EXIT (R282). -/
  | privetDozeExit (k : StackId)
  /-- KERNEL_BEAT (R114). -/
  | kernelBeat (t : TileId) (errs : List TileErr)
  /-- HOLD_LIMIT_EXPIRE (R137). -/
  | holdLimitExpire (t : TileId)
  /-- BCAST_FIFO_POP (R112). -/
  | bcastFifoPop (t : TileId) (errs : List TileErr)
  /-- ENGINE_COMMAND_PUSH (R521). -/
  | engineCommandPush (t : TileId) (e : EngId) (c : Option EngCmd) (bad : Bool)
  /-- DESCRIPTOR_ARRIVE (R521). -/
  | descriptorArrive (t : TileId) (e : EngId) (idx : Nat)
  /-- OPENING_COMMAND (R113). -/
  | openingCommand (t : TileId)
  /-- LOOP_COUNT_WRITE (R127). -/
  | loopCountWrite (t : TileId) (e : EngId)
  /-- LOOP (R126). -/
  | loop (t : TileId) (e : EngId)
  /-- END (R119). -/
  | endEngine (t : TileId) (e : EngId)
  /-- TLOAD (R120). -/
  | tload (t : TileId)
  /-- TSWAP (R120). -/
  | tswap (t : TileId)
  /-- TMUL (R154). -/
  | tmul (t : TileId)
  /-- TZERO (R124). -/
  | tzero (t : TileId)
  /-- TSTORE (R159). -/
  | tstore (t : TileId)
  /-- VLOAD (R120). -/
  | vload (t : TileId)
  /-- VSTORE (R120). -/
  | vstore (t : TileId)
  /-- VADD (R160). -/
  | vadd (t : TileId)
  /-- VMUL (R160). -/
  | vmul (t : TileId)
  /-- VFMA (R160). -/
  | vfma (t : TileId)
  /-- VMAX (R160). -/
  | vmax (t : TileId)
  /-- VMIN (R160). -/
  | vmin (t : TileId)
  /-- VCMP (R160). -/
  | vcmp (t : TileId)
  /-- VSEL (R160). -/
  | vsel (t : TileId)
  /-- VCVT (R151). -/
  | vcvt (t : TileId)
  /-- VSCALE (R162). -/
  | vscale (t : TileId)
  /-- VREDUCE (R160). -/
  | vreduce (t : TileId)
  /-- VEXP (R160). -/
  | vexp (t : TileId)
  /-- VRCP (R160). -/
  | vrcp (t : TileId)
  /-- VRSQRT (R160). -/
  | vrsqrt (t : TileId)
  /-- VSILU (R160). -/
  | vsilu (t : TileId)
  /-- GLOCAL (R196). -/
  | glocal (t : TileId)
  /-- GREMOTE (R195). -/
  | gremote (t : TileId)
  /-- SCATTER (R198). -/
  | scatter (t : TileId)
  /-- SCATTER_ADD (R198). -/
  | scatterAdd (t : TileId)
  /-- DLOCAL (R120). -/
  | dlocal (t : TileId)
  /-- DOUT (R191). -/
  | dout (t : TileId)
  /-- DIN (R191). -/
  | din (t : TileId)
  /-- RELEASE_INJECT (R297). -/
  | releaseInject (t : TileId) (op : Nat)
  /-- INBOUND_GRAIN_LAND (R118). -/
  | inboundGrainLand (t : TileId) (g : LandOf)
  /-- KERNEL_END (R119). -/
  | kernelEnd (t : TileId)
  /-- KERNEL_COMPLETE (R119). -/
  | kernelComplete (launch : Nat)
  /-- CORE_LOAD (R99). -/
  | coreLoad (t : TileId) (errs : List TileErr)
  /-- CORE_STORE (R99). -/
  | coreStore (t : TileId) (errs : List TileErr)
  /-- CORE_AMO (R303). -/
  | coreAmo (t : TileId) (errs : List TileErr)
  /-- CORE_LR (R101). -/
  | coreLr (t : TileId) (errs : List TileErr)
  /-- CORE_SC (R101). -/
  | coreSc (t : TileId) (errs : List TileErr)
  /-- CORE_FENCE (R303). -/
  | coreFence (t : TileId) (errs : List TileErr)
  /-- FENCE_TSO (R303). -/
  | fenceTso (t : TileId) (errs : List TileErr)
  /-- FENCE_I (R303). -/
  | fenceI (t : TileId) (errs : List TileErr)
  /-- WFI (R102). -/
  | wfi (t : TileId) (errs : List TileErr)
  /-- SYNCSCOPE_WRITE (R302). -/
  | syncscopeWrite (t : TileId) (errs : List TileErr)
  /-- CORE_INSTRUCTION (R99). -/
  | coreInstruction (t : TileId) (errs : List TileErr)
  /-- CORE_INTERRUPT (R102). -/
  | coreInterrupt (t : TileId)
  /-- CORE_RUN (R136). -/
  | coreRun (p : PortId) (t : TileId)
  /-- CORE_HALT (R136). -/
  | coreHalt (p : PortId) (t : TileId)
  /-- CACHE_INV (R97). -/
  | cacheInv (p : PortId) (t : TileId)
  /-- TILE_CNT_CLR (R103). -/
  | tileCntClr (p : PortId) (t : TileId)
  /-- REGISTER_WRITE (R8). -/
  | registerWrite (r : RegAt) (n : Nat) (v : Word64)
  /-- RC_REGISTER_READ (R8). -/
  | rcRegisterRead (r : RegAt) (n : Nat)
  /-- CACHE_FILL (R96). -/
  | cacheFill (t : TileId) (txn : Nat)
  /-- REMOTE_PORT_GRANT (R94). -/
  | remotePortGrant (t : TileId) (txn : Nat)
  /-- ARBITER_GRANT (R104). -/
  | arbiterGrant (a : Nat) (reqs : List ArbIn)
  /-- BUCKET_REFILL (R238). -/
  | bucketRefill (p : PartId)
  /-- MESH_PACKET_INJECT (R78). -/
  | meshPacketInject (ids : List Nat)
  /-- MESH_PACKET_ARRIVE (R78). -/
  | meshPacketArrive (txn : Nat) (lost : Option MeshErr)
  /-- LAUNCH_PACKET (R79). -/
  | launchPacket (launch : Nat) (h : HedgeId)
  /-- STREAM_FETCH_RETURN (R79). -/
  | streamFetchReturn (txn : Nat) (errs : List (Nat × Bool))
  /-- BROADCAST_WORD (R81). -/
  | broadcastWord (h : HedgeId) (launch : Nat) (bad : List TileId)
  /-- HOME_READ (R285). -/
  | homeRead (txn : Nat) (u : Upset)
  /-- HOME_WRITE (R285). -/
  | homeWrite (txn : Nat) (u : Upset)
  /-- HOME_ATOMIC (R306). -/
  | homeAtomic (txn : Nat) (u : Upset)
  /-- SCRUB_GRAIN (R230). -/
  | scrubGrain (k : TierId) (u : Upset)
  /-- REFRESH (R278): of a bank of a stack's pseudo-channel, by stack ID and number (07 R209). -/
  | refresh (k : StackId) (pch : Fin 64) (sid : Fin 4) (bank : Fin 16)
  /-- PAUSE_END (R280). -/
  | pauseEnd (u : UnitId) (beats : Nat)
  /-- DEFINE (R219). -/
  | defineRegion (p : PortId) (k : TierId) (entry base limit : Nat)
  /-- REMOVE (R219). -/
  | removeRegion (p : PortId) (k : TierId) (entry base limit : Nat)
  /-- RESEAL (R219). -/
  | resealRegion (p : PortId) (k : TierId) (entry base limit : Nat)
  /-- UNSEAL (R219). -/
  | unsealRegion (p : PortId) (k : TierId) (entry base limit : Nat)
  /-- REGION_CONVERSION_GRAIN (R222). -/
  | regionConversionGrain (k : TierId) (u : Upset)
  /-- BLIGHT (R232). -/
  | blightPage (p : PortId) (k : TierId) (page : Nat)
  /-- RESTORE (R232). -/
  | restorePage (p : PortId) (k : TierId) (page : Nat)
  /-- RETURN (R232). -/
  | returnPage (p : PortId) (k : TierId) (page : Nat)
  /-- STEP_QUIET_RAISE (R67). -/
  | stepQuietRaise (q : QuietIn)
  /-- DRAIN_OVERDUE (R144). -/
  | drainOverdue
  /-- STEP_KERNEL_LAUNCH (R375). -/
  | stepKernelLaunch
  /-- SCALE_FOLD (R168). -/
  | scaleFold
  /-- PRIVET_FAULT_NOTICE (R251). -/
  | privetFaultNotice
  /-- WEIGHT_PAGE_RESTORE (R387). -/
  | weightPageRestore
  /-- ADMIT (R363). -/
  | admitSequence (op : Nat)
  /-- CANCEL (R380). -/
  | cancel (op : Nat)
  /-- DRAFT (R378). -/
  | draft (op : Nat)
  /-- RECEIVE (R376). -/
  | receive (op : Nat)
  /-- PAUSE (R381). -/
  | pauseSequence (op : Nat)
  /-- RESUME (R381). -/
  | resumeSequence (op : Nat)
  /-- QUERY (R363). -/
  | query (op : Nat)
  /-- BERYL_WALK (R383). -/
  | berylWalk (q : SeqId)
  /-- NODE_INSERT (R384). -/
  | nodeInsert (q : SeqId)
  /-- EXTENT_SPILL (R382). -/
  | extentSpill (q : SeqId)
  /-- EXTENT_RESTORE (R382). -/
  | extentRestore (q : SeqId)
  /-- BATCH_DELIVER (R376). -/
  | batchDeliver (p : PartId)
  /-- PRIVET_COMMAND_ACCEPT (R246). -/
  | privetCommandAccept (txn : Nat) (bad : Bool)
  /-- MICRO_PROGRAM (R257). -/
  | microProgram (u : UnitId) (m : MicroIn) (w : UnitIn)
  /-- MV (R265). -/
  | mv (u : UnitId) (w : UnitIn)
  /-- ATTEND (R273). -/
  | attend (u : UnitId) (w : UnitIn)
  /-- SEGRED (R266). -/
  | segred (u : UnitId) (w : UnitIn)
  /-- PRIVET_GATHER (R267). -/
  | privetGather (u : UnitId) (w : UnitIn)
  /-- MEMBER (R268). -/
  | member (u : UnitId) (w : UnitIn)
  /-- PRIVET_COPY (R269). -/
  | privetCopy (u : UnitId) (w : UnitIn)
  /-- PRIVET_COMMAND_COMPLETE (R247). -/
  | privetCommandComplete (u : UnitId) (beats : Nat := 0)
  /-- PRIVET_TIME_LIMIT (R253). -/
  | privetTimeLimit (u : UnitId) (beats : Nat := 0)
  /-- UNIT_BUFFER_WRITE (R254). -/
  | unitBufferWrite (txn : Nat)
  /-- BROADCAST_WINDOW_WRITE (R255). -/
  | broadcastWindowWrite (txn : Nat)
  /-- UNIT_LOAD_BEGIN (R258). -/
  | unitLoadBegin (p : PortId) (u : UnitId)
  /-- LOAD_GRAIN (R258). -/
  | loadGrain (txn : Nat)
  /-- UNIT_LOAD_END (R258). -/
  | unitLoadEnd (p : PortId) (u : UnitId)
  /-- STORE_CRC_DONE (R258). -/
  | storeCrcDone (u : UnitId)
  /-- UNIT_CNT_CLR (R244). -/
  | unitCntClr (p : PortId) (u : UnitId)
  /-- ABORT (R282). -/
  | abortUnit (p : PortId) (u : UnitId)
  /-- PORT_RESET (R352). -/
  | portReset (p : PortId) (cause : Fin 3)
  /-- PERST_DEASSERT (R502). -/
  | perstDeassert (p : PortId)
  /-- PCIE_LINK_UP (R316). -/
  | pcieLinkUp (p : PortId) (rate width : Nat)
  /-- FUNCTION_LEVEL_RESET (R353). -/
  | functionLevelReset (p : PortId) (f : FnId)
  /-- APERTURE_READ (R321), with the request's ordering attributes, by which the port does not go. -/
  | apertureRead (p : PortId) (addr len : Nat) (attrs : Fin 4)
  /-- APERTURE_WRITE (R321), with the request's Relaxed Ordering and ID-Based Ordering attributes, which the port ignores (09 R312). -/
  | apertureWrite (p : PortId) (addr : Nat) (data : List Byte) (ep : Bool) (attrs : Fin 4)
  /-- SQ_TAIL (R329). -/
  | sqTail (p : PortId) (f : FnId) (q : Nat) (v : BitVec 16)
  /-- CQ_HEAD (R329). -/
  | cqHead (p : PortId) (f : FnId) (q : Nat) (v : BitVec 16)
  /-- QUEUE_ENABLE (R328). -/
  | queueEnable (p : PortId) (f : FnId) (q : Nat)
  /-- QUEUE_DISABLE (R328). -/
  | queueDisable (p : PortId) (f : FnId) (q : Nat)
  /-- DESCRIPTOR_FETCH (R330). -/
  | descriptorFetch (q : QueueId) (n : Nat)
  /-- HOST_READ_COMPLETION (R318). -/
  | hostReadCompletion (id : Nat) (data : List Byte) (ok : Bool) (poison : Bool) (bufErr : Fin 3)
  /-- HOST_READ_TIMEOUT (R354). -/
  | hostReadTimeout (id : Nat)
  /-- NOP (R332). -/
  | nop (op : Nat)
  /-- KERNEL (R333). -/
  | kernel (op : Nat)
  /-- COPY (R333). -/
  | copy (op : Nat)
  /-- COPY_TENSOR (R333). -/
  | copyTensor (op : Nat)
  /-- DRAIN (R334). -/
  | drain (op : Nat)
  /-- IMAGE_LOAD (R348). -/
  | imageLoad (op : Nat)
  /-- IMAGE_UNLOAD (R348). -/
  | imageUnload (op : Nat)
  /-- COMPLETION_RECORD (R335). -/
  | completionRecord (op : Nat)
  /-- MSIX_HOLDOFF_EXPIRE (R339). -/
  | msixHoldoffExpire (q : QueueId)
  /-- QUEUE_ASSIGN (R326). -/
  | queueAssign (p : PortId) (f : FnId) (v : Word64)
  /-- PARTITION_RESET (R342). -/
  | partitionReset (p : PortId) (f : FnId) (part : PartId)
  /-- PARTITION_RESET_DONE (R342). -/
  | partitionResetDone (part : PartId)
  /-- RELEASE (R344). -/
  | releaseStewardship (p : PortId)
  /-- CLAIM (R344). -/
  | claimStewardship (p : PortId)
  /-- STEWARD_AUTO_PASS (R346). -/
  | stewardAutoPass
  /-- MAILBOX_READ (R350). -/
  | mailboxRead (p : PortId) (f : FnId) (index : BitVec 16) (sub : Byte)
  /-- MAILBOX_WRITE (R350). -/
  | mailboxWrite (p : PortId) (f : FnId) (index : BitVec 16) (sub : Byte) (len : Nat)
  /-- DICTIONARY_SERVE (R439). -/
  | dictionaryServe (err : Fin 3)
  /-- STORED_WRITE_DONE (R438). -/
  | storedWriteDone
  /-- MARCH_DONE (R485). -/
  | marchDone (m : MarchIn)
  /-- REPORT_DONE (R512). -/
  | reportDone
  /-- CBL_PRSNT_CHANGE (R394). -/
  | cblPrsntChange (b : BriarId) (present : Bool)
  /-- LOSS_OF_SIGNAL (R394). -/
  | lossOfSignal (b : BriarId)
  /-- SIGNAL_DETECT (R394). -/
  | signalDetect (b : BriarId)
  /-- TRAINING_TIMEOUT (R394). -/
  | trainingTimeout (b : BriarId)
  /-- IDENT (R393). Bit i of `trained` is set where lane i has trained (R396). -/
  | ident (b : BriarId) (trained : Nat) (ringId n pos port : Nat)
  /-- BRIAR_FRAME_RECEIVE (R398). -/
  | briarFrameReceive (b : BriarId) (f : FrameIn)
  /-- ACK_TIMEOUT (R399). -/
  | ackTimeout (b : BriarId)
  /-- READ (R408). -/
  | briarRead (b : BriarId)
  /-- WRITE (R408). -/
  | briarWrite (b : BriarId)
  /-- COMBINE (R408). -/
  | briarCombine (b : BriarId)
  /-- READ_RESP (R411). -/
  | briarReadResp (b : BriarId)
  /-- ACK (R411). -/
  | briarAck (b : BriarId)
  /-- REMOTE_TIMEOUT (R410). -/
  | remoteTimeout (tag : Nat)
  /-- LSA_SEND (R406). -/
  | lsaSend
  /-- LSA (R406). -/
  | lsa (b : BriarId)
  /-- LINK_MAP_EXPIRE (R406). -/
  | linkMapExpire (pos : Fin 64)
  /-- HEDGEROW_FRAME (R421). -/
  | hedgerowFrame (up : Bool) (bytes : List Byte) (fcsOk room : Bool)
  /-- READ_REQ (R426). -/
  | readReq
  /-- WRITE_REQ (R427). -/
  | writeReq
  /-- DESCRIBE_REQ (R425). -/
  | describeReq
  /-- HANDOVER_REQ (R433). -/
  | handoverReq
  /-- PROBE (R425). -/
  | probe
  /-- NOTICE_ACK (R432). -/
  | noticeAck
  /-- SWEEP (R429). -/
  | sweep
  /-- NOTICE_RESEND (R432). -/
  | noticeResend (seq : Nat)
  /-- EVENT_INTAKE (R490). -/
  | eventIntake
  /-- OVERVOLTAGE_LOCKOUT_RELEASE (R16). -/
  | overvoltageLockoutRelease (mv : Nat) (straps : BitVec 6)
  deriving DecidableEq, Repr

end Sys2Proof
end

