-- ==== Sys2Proof/Config.lean ====
section
/-!
DEFINITION. What the manual leaves open, as constants without a body, and the figures an implementation fixes.
No proof can see a value of an `opaque` constant here: a statement about it holds for every value.
-/

namespace Sys2Proof.Config

/-- A byte of memory whose contents the manual calls undefined (07 R219, R233; 16 R505), by generation and address. DESIGN CHOICE (log 5): free. -/
opaque undefByte : Nat → Nat → Byte

/-- Byte `i` of poisoned data of which the manual gives no bytes (15 R474: undefined, never examined; log 82). -/
opaque poisonByte : Nat → Byte

/-- A fresh free word of 64 bits for draw `n` (log 3). -/
opaque freeWord : Nat → Word64

/-- Which value within its bound VEXP returns, as a distance in ulp (05 R160); the machine clamps it to the bound. -/
opaque vexpPick : Word32 → Int
/-- As `vexpPick`, for VRCP. -/
opaque vrcpPick : Word32 → Int
/-- As `vexpPick`, for VRSQRT. -/
opaque vrsqrtPick : Word32 → Int
/-- As `vexpPick`, for VSILU. -/
opaque vsiluPick : Word32 → Int

/-- The lane pattern with which VCMP marks a lane true or false; bit 0 is forced by the machine (05 R160 gives no coding; log 14). -/
opaque maskPattern : Bool → Word32

/-- Whether an intact Open word decodes as Sealed with one error in its mode nibble, by its 32 data bytes (07 R522). -/
opaque sealedDecodesOpen : List Byte → Bool

/-- What the Sealed decoder delivers of a word with several disturbed symbols, where it decodes at all (07 R212 promises only two), by the
word's state (0 sealed, 1 open, 2 poison), its disturbance and its data. -/
opaque sealedMany : Nat → Nat → List Byte → Option (List Byte)
/-- Whether the low check bits of a word that was not written Open happen to be its parity (07 R214), likewise. -/
opaque strayParity : Nat → Nat → List Byte → Bool

/-- The fuse image less the identity seed area (16 R499 step 2; 17 R510). Per module. -/
opaque fuseImage : List Byte
/-- Characters 1 to 6 of the serial number, which name the plant and the date of manufacture (13 R442): 0 to 9 a digit, 10 to 35 a capital letter. Per module. -/
opaque serialHead : Fin 6 → Fin 36
/-- Characters 7 to 12 of the serial number read as one hexadecimal number, which ends the MAC address too (13 R442). Per module. -/
opaque macLow : BitVec 24
/-- A digit, or a capital letter, in ASCII. -/
def serialChar (n : Nat) : Byte := BitVec.ofNat 8 (if n < 10 then 0x30 + n else 0x37 + n)
/-- Serial number, 12 characters as bytes (13 R442). -/
def serial : List Byte :=
  (List.finRange 6).map (fun i => serialChar (serialHead i).val) ++ (List.range 6).map fun i => serialChar (macLow.toNat / 16 ^ (5 - i) % 16)
/-- Year, month and day of manufacture (13 R442). Per module. -/
opaque madeYear : Fin 10000
/-- The month less one. -/
opaque madeMonth : Fin 12
/-- The day less one. -/
opaque madeDay : Fin 31
/-- A number of up to four digits as binary-coded decimal. -/
def bcd (n : Nat) : Nat := n % 10 + 16 * (n / 10 % 10) + 256 * (n / 100 % 10) + 4096 * (n / 1000 % 10)
/-- Date of manufacture, 0xYYYY_MMDD (13 R442). -/
def madeOn : Word32 := BitVec.ofNat 32 (2 ^ 16 * bcd madeYear.val + 2 ^ 8 * bcd (madeMonth.val + 1) + bcd (madeDay.val + 1))
/-- The certificate chain of 17 R509 in DER. Per module. -/
opaque chain : List Byte
/-- The 2,592-byte public identity key of 17 R508. Per module. -/
opaque identityKey : List Byte
/-- The hedged ML-DSA-87 signature of 17 R515, by draw and message. -/
opaque mldsaSign : Nat → List Byte → List Byte
/-- ML-DSA-87 verification of FIPS 204 (17 R516): key, message, signature. -/
opaque mldsaVerify : List Byte → List Byte → List Byte → Bool

/-- A remote diode's ideality factor in millionths, as its fuses give it (14 R455), by channel. Per module. -/
opaque ideality : Nat → Nat
/-- By how many sixteenths of a degree a remote diode's reading lies from its formula, by channel and the three voltages in microvolts; the machine clamps it to
the accuracy of 14 R454 (log 93). -/
opaque diodePick : Nat → Nat → Nat → Nat → Int
/-- By how many sixteenths of a degree a thermistor reading lies from the formula of 14 R456, by channel and input in microvolts; the machine clamps it to
the accuracy of R454 (log 93). -/
opaque thermPick : Nat → Nat → Int
/-- Full scale of voltage-sense channel 1, as Q16.16 (01 R34 gives none). -/
opaque vsns1Full : Nat

/-- A byte of a vector register that VCVT leaves unstated: past its packed result (05 R151 gives no value; log 16). -/
opaque vcvtRest : Nat → Byte
/-- An element of a stationary buffer read at another width than it was loaded with, or a scale byte of a buffer loaded without scales: row, column (05 R153; log 16). -/
opaque strayElem : Nat → Nat → Nat
/-- Whether a fold that FP32 cannot hold exactly is rounded away from zero, by its magnitude's lower neighbour (05 R168; log 16). -/
opaque foldUp : Nat → Bool

/-- Whether the end notice of a launch's tile reaches the launcher in the same beat as the notice before it (04 R119; log 89). -/
opaque sameBeat : Nat → Nat → Bool

/-- Whether a timestamp read from the fabric is 80 ns (0) or 120 ns old, by the timebase's value and the reader (02 R60, R61; log 94). -/
opaque tsAge : Nat → Nat → Nat

/-- Which way the pseudo-least-recently-used replacement of 03 R95 picks among 8 ways, by the set's history word. -/
opaque plruWay : Nat → Nat

/-- What a store word makes a micro-program do. The encoding of micro-programs is the toolchain's (08 R257; log 58). -/
inductive MicroAct where
  /-- Computes in the 16 registers, and names the word that follows. -/
  | step (regs : List Nat) (next : Nat)
  /-- Opens a hardware loop over the words after it, up to word `last`, `count` times. -/
  | loop (last count : Nat)
  /-- Invokes a primitive of R264 with parameters computed in the registers. -/
  | invoke (prim : Fin 7) (params : List Nat)
  /-- Ends the program with a result of `grains` grains. -/
  | finish (grains : Nat)
  deriving DecidableEq, Repr, Inhabited

/-- The act of a store word, with the registers as they stand (08 R257; log 58). -/
opaque microAct : Nat → List Nat → MicroAct

/-- What mtval holds after an exception for which 03 and 15 state no value, by cause and pc (log 23). -/
opaque trapValue : Nat → Nat → Word32

end Sys2Proof.Config
end

