-- ==== Sys2Proof/Machine/Bits.lean ====
section
/-!
DEFINITION. Bytes, bit fields, sign extension, saturating counters, sequence comparison, CRCs and SHA3-512.
-/

namespace Sys2Proof.Machine

/-- Bits `[hi:lo]` of a number. -/
def bits (w lo n : Nat) : Nat := (w / 2 ^ lo) % 2 ^ n

/-- Bit `i` of a number. -/
def bitAt (w i : Nat) : Bool := w.testBit i

/-- Replace bits `[lo+n-1:lo]` of `w` by `v`. -/
def setBits (w lo n v : Nat) : Nat :=
  w - bits w lo n * 2 ^ lo + (v % 2 ^ n) * 2 ^ lo

/-- A Bool as a bit. -/
def b2n (b : Bool) : Nat := if b then 1 else 0

/-- The signed value of the low `n` bits. -/
def sext (n w : Nat) : Int :=
  let v := w % 2 ^ n
  if 2 ^ (n - 1) ≤ v then (v : Int) - (2 ^ n : Nat) else v

/-- An integer as `n` bits. -/
def toBits (n : Nat) (i : Int) : Nat := (i % ((2 ^ n : Nat) : Int)).toNat

/-- Little-endian bytes to a number (00 R7). -/
def leNat : List Byte → Nat
  | [] => 0
  | b :: bs => b.toNat + 256 * leNat bs

/-- A number as `n` little-endian bytes (00 R7). -/
def leBytes : Nat → Nat → List Byte
  | 0, _ => []
  | n + 1, v => BitVec.ofNat 8 v :: leBytes n (v / 256)

/-- `n` bytes of a list from offset `o`, as a number; bytes past the end read as zero. -/
def fieldAt (l : List Byte) (o n : Nat) : Nat := leNat ((l.drop o).take n)

/-- Replace the bytes of `l` from `o` by `b`; the list is padded with zeros to reach `o`. -/
def putAt (l : List Byte) (o : Nat) (b : List Byte) : List Byte :=
  (l.take o ++ List.replicate (o - l.length) 0#8) ++ b ++ l.drop (o + b.length)

/-- `n` zero bytes. -/
def zeros (n : Nat) : List Byte := List.replicate n 0#8

/-- The `n` bytes of poisoned data that stands for none: undefined (15 R474; log 82). -/
def noData (n : Nat) : List Byte := (List.range n).map Config.poisonByte

/-- Pad with zeros at the end, or cut, to length `n`. -/
def padTo (n : Nat) (l : List Byte) : List Byte := l.take n ++ zeros (n - l.length)

/-- ⌈a / b⌉. -/
def cdiv (a b : Nat) : Nat := (a + b - 1) / b

/-- A saturating counter of `w` bits (03 R103, 15 R493). -/
def satAdd (w c n : Nat) : Nat := min (c + n) (2 ^ w - 1)

/-- One more on a saturating 32-bit counter. -/
def inc32 (c : Nat) : Nat := satAdd 32 c 1

/-- Add to a 64-bit counter, which wraps in no run (15 R494). -/
def add64 (c n : Nat) : Nat := (c + n) % 2 ^ 64

/-- Is sequence number `a` later than `b`, of `w` bits (15 R495)? -/
def seqLater (w a b : Nat) : Bool :=
  let d := (a + 2 ^ w - b % 2 ^ w) % 2 ^ w
  decide (1 ≤ d ∧ d < 2 ^ (w - 1))

/-- The tally condition "Tn has reached v" (04 R117). -/
def tallyReached (t v : Nat) : Bool := decide ((t + 65536 - v % 65536) % 65536 < 32768)

/-- Split a list into pieces of `n` (the last may be shorter); `fuel` is the list's length. -/
def chunksOf (n : Nat) : Nat → List α → List (List α)
  | 0, _ => []
  | fuel + 1, l => if l.isEmpty then [] else l.take n :: chunksOf n fuel (l.drop n)

/-- Split a byte list into grains of 64 bytes, the last filled with zeros. -/
def grainsOf (l : List Byte) : List (List Byte) :=
  (chunksOf 64 (cdiv l.length 64) l).map (padTo 64)

/-! ## CRCs -/

/-- One bit of a reflected CRC with polynomial `poly`. -/
def crcBit (poly c : Nat) : Nat := if c % 2 = 1 then (c / 2) ^^^ poly else c / 2

/-- One byte of a reflected CRC. -/
def crcByte (poly c : Nat) (b : Byte) : Nat :=
  (List.range 8).foldl (fun c _ => crcBit poly c) (c ^^^ b.toNat)

/-- The CRC register after a list of bytes; it is matched on so that it is evaluated byte by byte. -/
def crcRun (poly : Nat) : List Byte → Nat → Nat
  | [], c => c
  | b :: r, 0 => crcRun poly r (crcByte poly 0 b)
  | b :: r, c + 1 => crcRun poly r (crcByte poly (c + 1) b)

/-- A reflected 32-bit CRC with the usual preset and final inversion. -/
def crc32With (poly : Nat) (l : List Byte) : Nat := crcRun poly l 0xFFFFFFFF ^^^ 0xFFFFFFFF

/-- The CRC-32 of IEEE 802.3 (08 R258, 13 R438). -/
def crc32 (l : List Byte) : Nat := crc32With 0xEDB88320 l

/-- CRC-32C, the Castagnoli polynomial (11 R383, 12 R397). -/
def crc32c (l : List Byte) : Nat := crc32With 0x82F63B78 l

/-! ## SHA3-512 (FIPS 202), which 10 R347, 13 R450 and 17 R510 use. PRESUMED: the standard, log 15. -/

/-- ρ's walk over the lanes: from lane (x, y), `n` steps (x, y) → (y, 2x + 3y), the offset growing by one more at each; as lane 5y + x and offset. -/
def keccakWalk : Nat → Nat → Nat → Nat → Nat → List (Nat × Nat)
  | 0, _, _, _, _ => []
  | n + 1, x, y, step, off => (5 * y + x, off % 64) :: keccakWalk n y ((2 * x + 3 * y) % 5) (step + 1) (off + step)

/-- Rotation offset of a lane: the walk's; lane 0 stays. -/
def keccakRot (i : Nat) : Nat := (((keccakWalk 24 1 0 2 1).find? (·.1 == i)).map (·.2)).getD 0

/-- ι's bits: the shift register x⁸ + x⁶ + x⁵ + x⁴ + 1, one bit a step. -/
def keccakLfsr : Nat → Nat → List Nat
  | 0, _ => []
  | n + 1, r => r % 2 :: keccakLfsr n (if r < 128 then 2 * r else (2 * r) ^^^ 0x171)

/-- Round constants of ι: of each round's seven bits, bit j stands at place 2^j − 1. -/
def keccakRc : List Nat :=
  (List.range 24).map fun k => (((keccakLfsr 168 1).drop (7 * k)).take 7).zipIdx.foldl (fun a x => a + x.1 * 2 ^ (2 ^ x.2 - 1)) 0

/-- Rotate a 64-bit lane left. -/
def rotl64 (w n : Nat) : Nat := (w * 2 ^ n) % 2 ^ 64 + w / 2 ^ (64 - n)

/-- Lane `i` of a Keccak state. -/
def lane (a : List Nat) (i : Nat) : Nat := a.getD i 0

/-- θ: each lane takes the parities of two columns. -/
def keccakTheta (a : List Nat) : List Nat :=
  let par (x : Nat) : Nat := (List.range 5).foldl (fun p y => p ^^^ lane a (5 * y + x)) 0
  let cols := (List.range 5).map fun x => par ((x + 4) % 5) ^^^ rotl64 (par ((x + 1) % 5)) 1
  a.zipIdx.map fun e => e.1 ^^^ lane cols (e.2 % 5)

/-- ρ and π: the lane that stands at (x + 3y, x) is turned by its offset and moves to (x, y). -/
def keccakMove (a : List Nat) : List Nat :=
  (List.range 25).map fun i =>
    let src := 5 * (i % 5) + (i % 5 + 3 * (i / 5)) % 5
    rotl64 (lane a src) (keccakRot src)

/-- χ: along each row, a lane takes the next but one where the next is clear. -/
def keccakChi (a : List Nat) : List Nat :=
  a.zipIdx.map fun e =>
    let at_ (k : Nat) : Nat := lane a (e.2 / 5 * 5 + (e.2 + k) % 5)
    e.1 ^^^ (at_ 2 - (at_ 1 &&& at_ 2))

/-- One round of Keccak-f[1600]. -/
def keccakRound (a : List Nat) (rc : Nat) : List Nat :=
  match keccakChi (keccakMove (keccakTheta a)) with
  | [] => []
  | l0 :: r => (l0 ^^^ rc) :: r

/-- Keccak-f[1600]. -/
def keccakF (a : List Nat) : List Nat := keccakRc.foldl keccakRound a

/-- XOR a block of 64-bit words into the first lanes. -/
def xorLanes : List Nat → List Nat → List Nat
  | a :: as, b :: bs => (a ^^^ b) :: xorLanes as bs
  | as, [] => as
  | [], _ => []

/-- SHA3-512 of a byte string: 64 bytes. -/
def sha3_512 (msg : List Byte) : List Byte :=
  let rate := 72
  let n := msg.length % rate
  let padded :=
    if n = rate - 1 then msg ++ [0x86#8]
    else msg ++ [0x06#8] ++ zeros (rate - n - 2) ++ [0x80#8]
  let blocks := chunksOf rate (cdiv padded.length rate) padded
  let st := blocks.foldl (fun a blk => keccakF (xorLanes a ((chunksOf 8 9 blk).map leNat)))
    (List.replicate 25 0)
  (st.take 8).flatMap (leBytes 8)

end Sys2Proof.Machine
end

