-- ==== Sys2Proof/Machine/Num.lean ====
section
/-!
DEFINITION. Exact numbers and the ten element formats of 05 R145 to R152: widening is exact, every
narrowing rounds the exact value once, every special case is the manual's.
-/

namespace Sys2Proof.Machine

/-- A number in flight: exact, with the sign of zero kept (05 R149). -/
inductive Num where
  | nan
  | inf (neg : Bool)
  | zero (neg : Bool)
  /-- `m * 2^e`, `m` not 0. -/
  | fin (m : Int) (e : Int)
  deriving DecidableEq, Repr

/-- `m * 2^e` as a number, a zero being positive. -/
def Num.ofDyadic (m e : Int) : Num := if m = 0 then .zero false else .fin m e

/-- An integer. -/
def Num.ofInt (i : Int) : Num := Num.ofDyadic i 0

/-- Sign of a number (NaN counts as positive). -/
def Num.neg? : Num → Bool
  | .nan => false
  | .inf s => s
  | .zero s => s
  | .fin m _ => decide (m < 0)

def Num.isNan : Num → Bool
  | .nan => true
  | _ => false

def Num.isInf : Num → Bool
  | .inf _ => true
  | _ => false

def Num.isZero : Num → Bool
  | .zero _ => true
  | _ => false

/-- Negation. -/
def Num.negate : Num → Num
  | .nan => .nan
  | .inf s => .inf (!s)
  | .zero s => .zero (!s)
  | .fin m e => .fin (-m) e

/-- Absolute value. -/
def Num.abs (x : Num) : Num := if x.neg? then x.negate else x

/-- Exact product; 0 times infinity is NaN (05 R154). -/
def Num.mul : Num → Num → Num
  | .nan, _ => .nan
  | _, .nan => .nan
  | .inf s, .inf t => .inf (s != t)
  | .inf _, .zero _ => .nan
  | .zero _, .inf _ => .nan
  | .inf s, .fin m _ => .inf (s != decide (m < 0))
  | .fin m _, .inf t => .inf (decide (m < 0) != t)
  | .zero s, .zero t => .zero (s != t)
  | .zero s, .fin m _ => .zero (s != decide (m < 0))
  | .fin m _, .zero t => .zero (decide (m < 0) != t)
  | .fin m e, .fin n f => .fin (m * n) (e + f)

/-- Align two mantissas to the lower exponent. -/
def alignSum (m e n f : Int) : Int × Int :=
  if e ≤ f then (m + n * ((2 ^ (f - e).toNat : Nat) : Int), e)
  else (m * ((2 ^ (e - f).toNat : Nat) : Int) + n, f)

/-- Exact sum; an exact zero of unlike signs is +0 (round to nearest), infinities of both signs give NaN. -/
def Num.add : Num → Num → Num
  | .nan, _ => .nan
  | _, .nan => .nan
  | .inf s, .inf t => if s = t then .inf s else .nan
  | .inf s, _ => .inf s
  | _, .inf t => .inf t
  | .zero s, .zero t => .zero (s && t)
  | .zero _, y => y
  | x, .zero _ => x
  | .fin m e, .fin n f => let p := alignSum m e n f; Num.ofDyadic p.1 p.2

/-- Multiply exactly by `2^k` (05 R145: applying an exponent never rounds). -/
def Num.scale (x : Num) (k : Int) : Num :=
  match x with
  | .fin m e => .fin m (e + k)
  | y => y

/-- Order of two numbers that are not NaN, +0 and -0 equal: is `x < y`? -/
def Num.lt : Num → Num → Bool
  | .nan, _ => false
  | _, .nan => false
  | .inf s, .inf t => s && !t
  | .inf s, _ => s
  | _, .inf t => !t
  | .zero _, .zero _ => false
  | .zero _, .fin n _ => decide (0 < n)
  | .fin m _, .zero _ => decide (m < 0)
  | .fin m e, .fin n f => decide ((alignSum m e (-n) f).1 < 0)

/-- Numeric equality, +0 and -0 equal, NaN unequal to everything. -/
def Num.eqv (x y : Num) : Bool := !x.isNan && !y.isNan && !x.lt y && !y.lt x

/-- The larger operand; NaN if either is; +0 is larger than -0 (05 R160). -/
def Num.max (x y : Num) : Num :=
  if x.isNan || y.isNan then .nan
  else if x.lt y then y
  else if y.lt x then x
  else if x.neg? then y else x

/-- The smaller operand, by the same rules. -/
def Num.min (x y : Num) : Num :=
  if x.isNan || y.isNan then .nan
  else if x.lt y then x
  else if y.lt x then y
  else if x.neg? then x else y

/-- A binary floating-point encoding (05 R147). Magnitude codes above `maxCode` are beyond the largest finite value. -/
structure Fp where
  mbits : Nat
  width : Nat
  bias : Nat
  maxCode : Nat
  infCode : Option Nat
  nanCode : Option Nat
  deriving DecidableEq, Repr

def fp32 : Fp := ⟨23, 32, 127, 0x7F7FFFFF, some 0x7F800000, some 0x7FC00000⟩
def bf16 : Fp := ⟨7, 16, 127, 0x7F7F, some 0x7F80, some 0x7FC0⟩
def fp16 : Fp := ⟨10, 16, 15, 0x7BFF, some 0x7C00, some 0x7E00⟩
def e4m3 : Fp := ⟨3, 8, 7, 0x7E, none, some 0x7F⟩
def e5m2 : Fp := ⟨2, 8, 15, 0x7B, some 0x7C, some 0x7E⟩
def e2m1 : Fp := ⟨1, 4, 1, 0x7, none, none⟩

/-- The value of a code (05 R147). -/
def Fp.decode (f : Fp) (w : Nat) : Num :=
  let mag := w % 2 ^ (f.width - 1)
  let s := w.testBit (f.width - 1)
  if f.maxCode < mag then
    if f.infCode = some mag then .inf s else .nan
  else
    let e := mag / 2 ^ f.mbits
    let m := mag % 2 ^ f.mbits
    if mag = 0 then .zero s
    else
      let sig : Int := if e = 0 then m else m + 2 ^ f.mbits
      let ex : Int := (if e = 0 then 1 else e : Nat) - (f.bias : Int) - (f.mbits : Int)
      .fin (if s then -sig else sig) ex

/-- ⌊log2 (num/den)⌋ for positive numbers. -/
def floorLog2Rat (num den : Nat) : Int :=
  let l : Int := (Nat.log2 num : Int) - (Nat.log2 den : Int)
  let ge : Bool :=
    if 0 ≤ l then decide (den * 2 ^ l.toNat ≤ num) else decide (den ≤ num * 2 ^ (-l).toNat)
  if ge then l else l - 1

/-- Round `num/den * 2^e` (positive) to the magnitude code of a format with an unbounded top:
to nearest with ties to even, or toward zero when `rz` (05 R151). -/
def Fp.roundMag (f : Fp) (rz : Bool) (num den : Nat) (e : Int) : Nat :=
  if num = 0 then 0
  else
    let p : Int := f.mbits
    let emin : Int := 1 - (f.bias : Int)
    let top := floorLog2Rat num den + e
    let ex := if top < emin then emin else top
    let q := ex - p
    -- value / 2^q = num * 2^(e-q) / den
    let sh := e - q
    let n := if 0 ≤ sh then num * 2 ^ sh.toNat else num
    let d := if 0 ≤ sh then den else den * 2 ^ (-sh).toNat
    let lo := n / d
    let r := n % d
    let up := if rz then false
      else decide (d < 2 * r) || (decide (2 * r = d) && decide (lo % 2 = 1))
    let sig := if up then lo + 1 else lo
    -- a significand of 2^(p+1) carries into the exponent by itself
    if top < emin then sig else (ex - emin).toNat * 2 ^ f.mbits + sig

/-- How a result leaves a format's range (05 R152). -/
inductive Clip where
  | none
  | saturated
  deriving DecidableEq, Repr

/-- The sign bit of a code. -/
def Fp.sign (f : Fp) (s : Bool) (mag : Nat) : Nat := if s then mag + 2 ^ (f.width - 1) else mag

/-- IEEE 754 result in FP32 or BF16: beyond the range, infinity to nearest and the largest finite value toward zero (05 R152, R160). The Bool says a finite value left the
range: to nearest, that it rounds beyond it; toward zero, that it lies beyond the largest finite value (DEDUCED, log 111). -/
def Fp.roundIeee (f : Fp) (rz : Bool) : Num → Nat × Bool
  | .nan => (f.nanCode.getD 0, false)
  | .inf s => (f.sign s (f.infCode.getD f.maxCode), false)
  | .zero s => (f.sign s 0, false)
  | .fin m e =>
    let s := decide (m < 0)
    let c := f.roundMag rz m.natAbs 1 e
    if f.maxCode < c then (f.sign s (if rz then f.maxCode else f.infCode.getD f.maxCode), true)
    else (f.sign s c, rz && (f.decode f.maxCode).lt (.fin m.natAbs e))

/-- Narrowing to a floating-point format other than FP32 (05 R152). -/
def Fp.narrow (f : Fp) (rz : Bool) : Num → Nat × Clip
  | .nan => (f.nanCode.getD 0, .none)
  | .inf s =>
    match f.infCode with
    | some c => (f.sign s c, .none)
    | none => (f.sign s f.maxCode, .saturated)
  | .zero s => (f.sign s 0, .none)
  | .fin m e =>
    let s := decide (m < 0)
    let c := f.roundMag rz m.natAbs 1 e
    if f.maxCode < c then (f.sign s f.maxCode, .saturated) else (f.sign s c, .none)

/-- Round a number to an integer, to nearest with ties to even or toward zero. -/
def roundInt (rz : Bool) (m e : Int) : Int :=
  if 0 ≤ e then m * ((2 ^ e.toNat : Nat) : Int)
  else
    let d : Nat := 2 ^ (-e).toNat
    let lo := m.natAbs / d
    let r := m.natAbs % d
    let up := if rz then false
      else decide (d < 2 * r) || (decide (2 * r = d) && decide (lo % 2 = 1))
    let mag : Nat := if up then lo + 1 else lo
    if m < 0 then -(mag : Int) else mag

/-- Narrowing to an integer of `w` bits (05 R152); `zo` is the output zero point of R159. -/
def narrowIntTo (w : Nat) (rz : Bool) (zo : Int) : Num → Int × Clip
  | .nan => (0, .saturated)
  | .inf s => (if s then -((2 ^ (w - 1) : Nat) : Int) else ((2 ^ (w - 1) : Nat) : Int) - 1, .saturated)
  | x =>
    let i := (match x with
      | .fin m e => roundInt rz m e
      | _ => 0) + zo
    let hi : Int := ((2 ^ (w - 1) : Nat) : Int) - 1
    let lo : Int := -((2 ^ (w - 1) : Nat) : Int)
    if hi < i then (hi, .saturated) else if i < lo then (lo, .saturated) else (i, .none)

/-! ## Format codes (05 R145) -/

/-- The floating-point encoding of a code's elements, none for INT8 and INT4 and Reserved codes. -/
def fpOf (fmt : Nat) : Option Fp :=
  match fmt with
  | 0 => some fp32
  | 1 => some bf16
  | 2 => some fp16
  | 3 => some e4m3
  | 4 => some e5m2
  | 5 => some e4m3
  | 6 => some e5m2
  | 7 => some e2m1
  | _ => none

/-- Element width in bits; 0 for a Reserved code. -/
def elemBits (fmt : Nat) : Nat :=
  match fmt with
  | 0 => 32
  | 1 => 16
  | 2 => 16
  | 3 => 8
  | 4 => 8
  | 5 => 8
  | 6 => 8
  | 7 => 4
  | 8 => 8
  | 9 => 4
  | _ => 0

/-- Codes 0xA to 0xF are Reserved. -/
def fmtReserved (fmt : Nat) : Bool := decide (9 < fmt)

/-- Does the format carry a block scale per 32 elements (05 R145, R148)? -/
def isMx (fmt : Nat) : Bool := fmt == 5 || fmt == 6 || fmt == 7

/-- Elements per channel vector (06 R177). -/
def vecElems (fmt : Nat) : Nat := if elemBits fmt = 4 then 64 else 32

/-- Bytes per channel vector (06 R177). -/
def vecBytes (fmt : Nat) : Nat := vecElems fmt * elemBits fmt / 8

/-- Scale bytes per channel vector (06 R177). -/
def vecScales (fmt : Nat) : Nat := if isMx fmt then vecElems fmt / 32 else 0

/-- Element `i` of packed bytes, as its raw code (06 R180: element 2k in the low nibble). -/
def elemCode (fmt : Nat) (l : List Byte) (i : Nat) : Nat :=
  let w := elemBits fmt
  if w = 4 then bits ((l.getD (i / 2) 0#8).toNat) (4 * (i % 2)) 4
  else fieldAt l (i * (w / 8)) (w / 8)

/-- The value of a raw code with zero point `zp` (05 R150, R158), before its exponents. -/
def codeValue (fmt zpBits : Nat) (code : Nat) : Num :=
  match fpOf fmt with
  | some f => f.decode code
  | none =>
    if fmt = 8 then Num.ofInt (sext 8 code - sext 8 zpBits)
    else if fmt = 9 then Num.ofInt (sext 4 code)
    else .nan

/-- The exponent of an E8M0 scale byte; 0xFF marks a NaN block (05 R148). -/
def scaleExp (b : Byte) : Option Int := if b = 0xFF#8 then none else some ((b.toNat : Int) - 127)

/-- An element widened exactly with its block scale and tensor exponent (05 R150). -/
def widen (fmt zp : Nat) (texp : Int) (scale : Option Byte) (code : Nat) : Num :=
  let v := codeValue fmt zp code
  match (if isMx fmt then scale.map scaleExp else some (some 0)) with
  | some (some k) => v.scale (k + (if fmt ≤ 2 then 0 else texp))
  | some none => .nan
  | none => v.scale texp

/-- Pack raw codes of a format to bytes (06 R180). -/
def packCodes (fmt : Nat) (codes : List Nat) : List Byte :=
  if elemBits fmt = 4 then
    (chunksOf 2 codes.length codes).map fun p =>
      BitVec.ofNat 8 (p.getD 0 0 % 16 + 16 * (p.getD 1 0 % 16))
  else codes.flatMap (leBytes (elemBits fmt / 8))

/-- Narrow a value to a format without a block scale (05 R151, R152): code, and whether a saturation counts in the
command's class, and whether an FP32 overflow counts in class ACC. -/
def narrowTo (fmt : Nat) (rz : Bool) (zo : Int) (x : Num) : Nat × Bool × Bool :=
  match fmt with
  | 0 => let r := fp32.roundIeee rz x; (r.1, false, r.2)
  | 8 => let r := narrowIntTo 8 rz zo x; (toBits 8 r.1, r.2 == .saturated, false)
  | 9 => let r := narrowIntTo 4 rz zo x; (toBits 4 r.1, r.2 == .saturated, false)
  | _ =>
    match fpOf fmt with
    | some f => let r := f.narrow rz x; (r.1, r.2 == .saturated, false)
    | none => (0, false, false)

/-- The largest magnitude F of a scaled format (05 R169). -/
def scaleF (fmt : Nat) : Nat :=
  match fmt with
  | 3 => 448
  | 4 => 57344
  | 8 => 127
  | _ => 7

/-! ## FP32 arithmetic of the vector engine (05 R160) -/

/-- Round to FP32, to nearest. -/
def toF32 (x : Num) : Nat := (fp32.roundIeee false x).1

/-- The value of an FP32 code. -/
def ofF32 (w : Nat) : Num := fp32.decode w

/-- Rounded FP32 sum. -/
def addF32 (a b : Nat) : Nat := toF32 ((ofF32 a).add (ofF32 b))

/-- The fixed pairwise tree of R160: lane 2k with lane 2k + 1, then pairs of pairs. -/
def treeSum : Nat → List Nat → Nat
  | 0, l => l.getD 0 0
  | n + 1, l =>
    treeSum n ((chunksOf 2 l.length l).map fun p =>
      match p with
      | [a, b] => addF32 a b
      | [a] => a
      | _ => 0)

/-- Bits of the fixed-point working precision of the transcendental functions. -/
def fixP : Nat := 192

/-- ln 2 times 2^256. -/
def ln2Q256 : Nat := 0xb17217f7d1cf79abc9e3b39803f2f6af40f343267298b62d8a0d175b8baafa2b

/-- Σ r^n/n! for `r / 2^fixP`, to 48 terms, in fixed point. -/
def expSeries (r : Int) : Int :=
  ((List.range 48).foldl (fun (acc : Int × Int) n =>
    let t := acc.2 * r / (((n + 1) * 2 ^ fixP : Nat) : Int)
    (acc.1 + t, t)) (((2 ^ fixP : Nat) : Int), ((2 ^ fixP : Nat) : Int))).1

/-- e^(m·2^e) as `y * 2^k`: the pair `(y, k)`. The relative error is far below half an ulp of FP32. -/
def expFix (m e : Int) : Nat × Int :=
  let x : Int := if 0 ≤ e + (fixP : Int) then m * ((2 ^ (e + (fixP : Int)).toNat : Nat) : Int)
    else m / ((2 ^ (-(e + (fixP : Int))).toNat : Nat) : Int)
  let l2 : Int := ((ln2Q256 / 2 ^ (256 - fixP) : Nat) : Int)
  let k := (2 * x + l2) / (2 * l2)
  let y := expSeries (x - k * l2)
  (y.toNat, k - (fixP : Int))

/-- Exponent of the last place of an FP32 magnitude code. -/
def ulpExp (mag : Nat) : Int := (max 1 (mag / 2 ^ 23) : Nat) - (150 : Int)

/-- Is the value of magnitude code `y` within `b` ulp of the exact `num / den * 2^e`, an ulp being the last place of the correctly rounded code `c` (05 R160)? -/
def withinUlp (b c y num den : Nat) (e : Int) : Bool :=
  let low := min e (min (ulpExp y) (ulpExp c))
  let up (n : Nat) (x : Int) : Int := ((n * 2 ^ (x - low).toNat : Nat) : Int)
  let sig := if y / 2 ^ 23 = 0 then y else y % 2 ^ 23 + 2 ^ 23
  decide ((up (sig * den) (ulpExp y) - up num e).natAbs ≤ b * (up den (ulpExp c)).natAbs)

/-- The nearest to `p` of the steps from `c`, coming back towards it, that stays within the bound. -/
def ulpStep (b c num den : Nat) (e : Int) : Nat → Int → Int
  | 0, _ => 0
  | fuel + 1, p =>
    let y := (c : Int) + p
    if p = 0 ∨ (0 ≤ y ∧ y ≤ 0x7F7FFFFF ∧ withinUlp b c y.toNat num den e = true) then p
    else ulpStep b c num den e fuel (if 0 < p then p - 1 else p + 1)

/-- The code that a function of R160 returns: `pick` steps from the correctly rounded code `c`, brought back until its value lies within `b` ulp of the exact
`num / den * 2^e`; never out of the finite range and never through zero. -/
def pickUlp (b : Nat) (pick : Int) (s : Bool) (c num den : Nat) (e : Int) : Nat :=
  fp32.sign s ((c : Int) + ulpStep b c num den e (2 * b + 1) (max (-(2 * b : Int)) (min (2 * b) pick))).toNat

/-- VEXP (05 R160): special cases as stated, otherwise a value within 2 ulp. -/
def f32Exp (w : Word32) : Nat :=
  match ofF32 w.toNat with
  | .nan => 0x7FC00000
  | .inf s => if s then 0 else 0x7F800000
  | .zero _ => pickUlp 2 (Config.vexpPick w) false 0x3F800000 1 1 0
  | .fin m e =>
    if 0 ≤ m ∧ 0x42B17218 ≤ w.toNat then 0x7F800000
    else if expBelow m e then 0
    else
      let y := expFix m e
      pickUlp 2 (Config.vexpPick w) false (min 0x7F7FFFFF (fp32.roundMag false y.1 1 y.2)) y.1 1 y.2
where
  /-- Is the value below -103.98? -/
  expBelow (m e : Int) : Bool := (Num.fin (m * 100) e).lt (.fin (-10398) 0)

/-- VRCP (05 R160): within 1 ulp. -/
def f32Rcp (w : Word32) : Nat :=
  match ofF32 w.toNat with
  | .nan => 0x7FC00000
  | .inf s => fp32.sign s 0
  | .zero s => fp32.sign s 0x7F800000
  | .fin m e =>
    let c := fp32.roundMag false 1 m.natAbs (-e)
    -- 1/x of the smallest subnormals lies beyond the range: IEEE 754's infinity
    if 0x7F7FFFFF < c then fp32.sign (decide (m < 0)) 0x7F800000
    else pickUlp 1 (Config.vrcpPick w) (decide (m < 0)) c 1 m.natAbs (-e)

/-- VRSQRT (05 R160): within 2 ulp. -/
def f32Rsqrt (w : Word32) : Nat :=
  match ofF32 w.toNat with
  | .nan => 0x7FC00000
  | .inf s => if s then 0x7FC00000 else 0
  | .zero s => fp32.sign s 0x7F800000
  | .fin m e =>
    if m < 0 then 0x7FC00000
    else
      -- 1/(m 2^e) = 2^(-e)/m; make the exponent even and keep 160 bits
      let odd := e % 2 = 1
      let e' : Int := if odd then e - 1 else e
      let m' : Nat := if odd then m.toNat * 2 else m.toNat
      let q := 2 ^ 200 / m'
      let r := Nat.sqrt q
      pickUlp 2 (Config.vrsqrtPick w) false (fp32.roundMag false (2 * r + 1) 1 (-(e' / 2) - 101)) (2 * r + 1) 1 (-(e' / 2) - 101)

/-- VSILU (05 R160): x/(1 + e^-x) within 4 ulp; -0 below -108.66. DESIGN CHOICE (log 47): of ±0 it is that zero, with its sign. -/
def f32Silu (w : Word32) : Nat :=
  match ofF32 w.toNat with
  | .nan => 0x7FC00000
  | .inf s => if s then 0x80000000 else 0x7F800000
  | .zero s => fp32.sign s 0
  | .fin m e =>
    if (Num.fin (m * 100) e).lt (.fin (-10866) 0) then 0x80000000
    else
      let s := decide (m < 0)
      if (Num.fin 256 0).lt (.fin m e) then
        -- a little less than x itself
        pickUlp 4 (Config.vsiluPick w) s (w.toNat % 2 ^ 31) (m.natAbs * 2 ^ 64 - 1) 1 (e - 64)
      else
        let y := expFix (-m) e
        -- den = 1 + y 2^k over 2^g
        let g : Nat := (-(min y.2 0)).toNat
        let yk : Nat := if 0 ≤ y.2 then y.1 * 2 ^ y.2.toNat else y.1
        let den := 2 ^ g + yk
        let c := fp32.roundMag false (m.natAbs * 2 ^ g) den e
        pickUlp 4 (Config.vsiluPick w) s (min 0x7F7FFFFF c) (m.natAbs * 2 ^ g) den e

end Sys2Proof.Machine
end

