-- ==== Sys2Proof/Machine/SMap.lean ====
section
/-!
DEFINITION. Sparse maps from numbers, with a default for what is not listed, in one canonical form:
keys strictly rising and no entry equal to the default. Every memory, register file and table of the
state that is large or sparse is one of these, so equal contents are equal data.
-/

namespace Sys2Proof.Machine

/-- A sparse map: a list of key and value pairs. -/
abbrev SMap (α : Type) := List (Nat × α)

/-- The value at a key, `d` where none is listed. -/
def SMap.get {α : Type} (d : α) : SMap α → Nat → α
  | [], _ => d
  | (j, v) :: r, k => if j = k then v else SMap.get d r k

/-- Store `v` at `k`; storing the default removes the entry. -/
def SMap.set {α : Type} [DecidableEq α] (d : α) : SMap α → Nat → α → SMap α
  | [], k, v => if v = d then [] else [(k, v)]
  | (j, w) :: r, k, v =>
    if j < k then (j, w) :: SMap.set d r k v
    else if j = k then SMap.set d r k v
    else if v = d then (j, w) :: SMap.set d r k v else (k, v) :: (j, w) :: r

/-- Change the value at `k` by `f`. -/
def SMap.mod {α : Type} [DecidableEq α] (d : α) (m : SMap α) (k : Nat) (f : α → α) : SMap α :=
  SMap.set d m k (f (SMap.get d m k))

/-- The keys rise strictly from above `lo` and no value is the default. -/
def SMap.wfFrom {α : Type} [DecidableEq α] (d : α) : Nat → SMap α → Bool
  | _, [] => true
  | lo, (j, v) :: r => decide (lo ≤ j) && decide (v ≠ d) && SMap.wfFrom d (j + 1) r

/-- The canonical form. -/
def SMap.wf {α : Type} [DecidableEq α] (d : α) (m : SMap α) : Bool := SMap.wfFrom d 0 m

/-- Remove every entry whose key satisfies `p`. -/
def SMap.drop {α : Type} (m : SMap α) (p : Nat → Bool) : SMap α := m.filter (fun kv => !p kv.1)

/-- Keys listed. -/
def SMap.keys {α : Type} (m : SMap α) : List Nat := m.map Prod.fst

/-- A byte memory: what is not listed reads as zero. -/
abbrev ByteMap := List Host.Cell

/-- The canonical form of a byte memory. -/
def ByteMap.wf (m : ByteMap) : Bool := SMap.wf 0#8 m

/-- `n` consecutive bytes from `a`. -/
def ByteMap.read (m : ByteMap) (a n : Nat) : List Byte :=
  (List.range n).map (fun i => SMap.get 0#8 m (a + i))

/-- Store consecutive bytes from `a`. -/
def ByteMap.write (m : ByteMap) (a : Nat) : List Byte → ByteMap
  | [] => m
  | b :: bs => ByteMap.write (SMap.set 0#8 m a b) (a + 1) bs

end Sys2Proof.Machine
end

