-- ==== Sys2Proof/Machine/StateTile.lean ====
section
/-!
DEFINITION. The state of one tile: control block, kernel in progress, engines, scratchpad, read cache, control core
(03 R69 to R103, 04 R112 to R138, 06 R188, 09 R302 to R305, 15 R473 to R478).
-/

namespace Sys2Proof.Machine

/-- Bytes with one poison flag: a grain, or a piece of one, on its way (15 R473). -/
structure Piece where
  bytes : List Byte := []
  poison : Bool := false
  deriving DecidableEq, Repr

/-- One word of a tile's broadcast FIFO (03 R81, 04 R112): start tag, end of stream, poison tag, and what the stream's header names. -/
structure BWord where
  data : Nat
  start : Bool
  last : Bool
  poison : Bool
  kernelId : Nat
  launch : Nat
  deriving DecidableEq, Repr

/-- A command in an engine queue with the descriptor grains read for it (06 R521). -/
structure QCmd where
  cmd : EngCmd
  idx : Nat
  bad : Bool
  got : List Piece
  /-- Grains that the window of a DOUT holds, once all its descriptors have been read: what its issue will read (06 R191). -/
  grains : Option Nat := none
  deriving DecidableEq, Repr

/-- One level of a hardware loop (04 R126): body start and length in the loop buffer, count, index. -/
structure LoopFrame where
  start : Nat
  len : Nat
  count : Nat
  index : Nat
  deriving DecidableEq, Repr

/-- One engine's queue, loop unit and place in its timeline (04 R115, R126 to R128). -/
structure Engine where
  queue : List QCmd := []
  pushed : Nat := 0
  engaged : Bool := false
  ended : Bool := false
  next : Nat := 0
  shortSpan : Bool := false
  counts : SMap Nat := []
  frames : List LoopFrame := []
  buf : List QCmd := []
  pos : Nat := 0
  skip : Nat := 0
  /-- The zero-length flag of the operation it issued last (00 R10, 06 R184; log 90). -/
  zeroLen : Bool := false
  deriving DecidableEq, Repr

/-- Which place of its operation a scheduled scratchpad read feeds (04 R120). -/
inductive RPart where
  | vload | tload | tloadScale | tmul | tmulScale | index | row | move | out
  /-- An accumulator row of TSTORE: no bank. -/
  | acc
  deriving DecidableEq, Repr

/-- A scheduled scratchpad read (04 R121). -/
structure SRead where
  beat : Nat
  eng : EngId
  cmd : Nat
  op : Nat
  part : RPart
  k : Nat
  addr : Nat
  len : Nat
  /-- Offset of the piece in its place. -/
  off : Nat := 0
  isNew : Bool
  deriving DecidableEq, Repr

/-- A scheduled scratchpad write. -/
structure SWrite where
  beat : Nat
  issue : Nat
  eng : EngId
  addr : Nat
  data : Piece
  deriving DecidableEq, Repr

/-- What lands in the registers of an engine. -/
inductive LandWhat where
  /-- Bytes of a vector register from an offset, with a flag for each grain written. -/
  | vreg (rd off : Nat) (bytes : List Byte) (poison : List Bool)
  /-- Exact sums to accumulate in a row. -/
  | accAdd (row : Nat) (ints : Bool) (vals : List Num) (poison : Bool)
  | accZero
  | shadow (op : Nat)
  | swap
  deriving DecidableEq, Repr

/-- A scheduled landing in a register, an accumulator row or a stationary buffer. -/
structure Land where
  beat : Nat
  issue : Nat
  what : LandWhat
  deriving DecidableEq, Repr

/-- A pending-write tag of Hawthorn mode (04 R129): space, bytes or number range, issue and landing beats. -/
structure HTag where
  space : Nat
  lo : Nat
  hi : Nat
  eng : EngId
  cmd : Nat
  issue : Nat
  land : Nat
  deriving DecidableEq, Repr

/-- One grain of an inbound transfer: local address, bytes so far, pieces missing, landed (04 R118). -/
structure InGrain where
  addr : Nat
  data : Piece
  missing : Nat
  landed : Bool
  deriving DecidableEq, Repr

/-- A destination of a piece of data: module (none: this one) and address. -/
structure FarAddr where
  module : Option Nat
  addr : Nat
  deriving DecidableEq, Repr

/-- A source grain of a scatter that waits to be read (04 R520), and the far places of its pieces: place, offset in the grain, mask of the bytes that are not padding. -/
structure SrcGrain where
  addr : Nat
  dests : List (FarAddr × Nat × List Byte)
  deriving DecidableEq, Repr

/-- An operation that has issued and has not finished: the scheduled ones until their last read, the asynchronous ones until counted. -/
structure OpRec where
  id : Nat
  eng : EngId
  cmd : Nat
  issue : Nat
  op : EngOp
  bases : List Nat := []
  descs : List Piece := []
  /-- Grains collected, by number. -/
  bufs : List (Nat × Piece) := []
  scale : Piece := {}
  /-- Scheduled reads not yet performed. -/
  left : Nat := 0
  /-- Asynchronous operations: tally, order of issue is the list's. -/
  tally : Option (Fin 8) := none
  ord : Order := .relaxed
  acks : Nat := 0
  grains : List InGrain := []
  srcs : List SrcGrain := []
  /-- BEAT_COUNT at its issue: the order of the tile's accesses (09 R297). -/
  at_ : Nat := 0
  unchecked : Bool := false
  /-- It is empty: its completion carries the zero-length flag (00 R10, 06 R184). -/
  zeroLen : Bool := false
  deriving DecidableEq, Repr

/-- A stationary buffer (03 R84): element rows, MX scales, element width in bits, one poison flag. -/
structure Stat where
  bytes : List Byte := []
  scales : List Byte := []
  width : Nat := 0
  mx : Bool := false
  poison : Bool := false
  deriving DecidableEq, Repr

/-- A line of the read cache (03 R95): grain number, data, unchecked flag, physical error (2 correctable, 3 not). -/
structure CLine where
  grain : Nat
  data : List Byte
  unchecked : Bool
  err : Nat
  deriving DecidableEq, Repr

/-- The control core (03 R99 to R102, 09 R302). -/
structure CoreSt where
  pc : Nat := 0
  regs : SMap Nat := []
  imem : ByteMap := []
  dmem : ByteMap := []
  imemErr : SMap Nat := []
  dmemErr : SMap Nat := []
  /-- CSRs by number: mstatus, mie, mtvec, mscratch, mepc, mcause, mtval (the Zicsr machine state). -/
  csrs : SMap Nat := []
  syncScope : Nat := 2
  /-- Load-reserve reservation in data memory. -/
  resv : Option Nat := none
  /-- BEAT_COUNT and kernel beat at the issue of the AMO with rl on which the core stalls (09 R297, R303). -/
  relAt : Option (Nat × Nat) := none
  halted : Bool := true
  wfi : Bool := false
  restart : Bool := false
  deriving DecidableEq, Repr

/-- Control block of a tile (03 R103). Counters stand in `cnt` under their offsets in the tile's 4 KiB (the schedule block from 0x100). -/
structure TileCtl where
  coreRun : Bool := false
  hawthorn : Bool := false
  irqEn : Nat := 0
  fault : Nat := 0
  winBase : Nat := 0
  beatCount : Nat := 0
  cnt : SMap Nat := []
  /-- Increments not yet collected (15 R493). -/
  hidden : SMap Nat := []
  deriving DecidableEq, Repr

/-- Schedule block of a tile (04 R138) less its counters. -/
structure Sched where
  kbeat : Nat := 0
  engaged : Nat := 0
  ended : Nat := 0
  held : Bool := false
  holdCause : Nat := 0
  kfault : Nat := 0
  holdBeats : Nat := 0
  curHold : Nat := 0
  holdSince : Nat := 0
  tally : SMap Nat := []
  deriving DecidableEq, Repr

/-- Hazard record (04 R133). -/
structure Hazard where
  valid : Bool := false
  reader : Nat := 0
  writer : Nat := 0
  space : Nat := 0
  readCmd : Nat := 0
  readBeat : Nat := 0
  writeIssue : Nat := 0
  writeLand : Nat := 0
  location : Nat := 0
  writeCmd : Nat := 0
  kernelId : Nat := 0
  deriving DecidableEq, Repr

/-- The kernel in progress in a tile (04 R112 to R119, R129, R134; 05 R172; 15 R476). -/
structure Kern where
  inKernel : Bool := false
  /-- The beat in progress is the one in which the kernel started (04 R114). -/
  startBeat : Bool := false
  /-- The cause with which an access that only a held beat allows has taken the beat in progress as held; it stays so to its end (04 R116, R118). -/
  heldAs : Nat := 0
  opened : Bool := false
  /-- Kernel beat 0 has come up and the opening command itself has not issued (04 R114, R116). -/
  opening : Bool := false
  decl : Option Opening := none
  hawthorn : Bool := false
  checkDue : Bool := false
  issued : Bool := false
  kernelId : Nat := 0
  launch : Nat := 0
  zeroLen : Bool := false
  fault : Nat := 0
  stopped : Bool := false
  /-- Lowest fault code met in the beat not yet closed. -/
  pend : Nat := 0
  poisoned : Bool := false
  unchecked : Bool := false
  sat : SMap Nat := []
  mxClip : Nat := 0
  /-- The stream's last word has been popped or dropped. -/
  lastPopped : Bool := false
  deriving DecidableEq, Repr

/-- A tile. -/
structure Tile where
  ctl : TileCtl := {}
  sched : Sched := {}
  hazard : Hazard := {}
  kern : Kern := {}
  fifo : List BWord := []
  eng : SMap Engine := []
  tloadOk : Nat := 0
  nextOp : Nat := 0
  ops : List OpRec := []
  reads : List SRead := []
  writes : List SWrite := []
  lands : List Land := []
  htags : List HTag := []
  /-- Grains in the 64-grain outbound buffer (04 R120). -/
  outUsed : Nat := 0
  /-- Tallies to count in the next beat for remote writes that landed (04 R117). -/
  landed : List (Fin 8) := []
  vreg : ByteMap := []
  vregPoison : SMap Bool := []
  acc : SMap Nat := []
  accPoison : SMap Bool := []
  active : Stat := {}
  shadow : Stat := {}
  scratch : ByteMap := []
  /-- 64-bit words: 0 clean, 1 poison pattern, 2 correctable error, 3 uncorrectable error (03 R86, R88). -/
  words : SMap Nat := []
  cache : SMap (Option CLine) := []
  plru : SMap Nat := []
  /-- Full invalidations of the cache so far: a fill asked for before one fills no line (09 R291). -/
  cacheGen : Nat := 0
  /-- Bank the remote port has used in this beat, and banks taken by asynchronous landings, as 16 × engine + bank (03 R92, 04 R118). -/
  remoteUse : Option Nat := none
  bankUse : List Nat := []
  /-- A request of several grains that the remote port has begun: its packet, and the grain that comes next (03 R94). -/
  burst : Option (Nat × Nat) := none
  core : CoreSt := {}
  deriving DecidableEq, Repr

/-- Vector, accumulator and other array defaults. -/
def Tile.engine (t : Tile) (e : EngId) : Engine := SMap.get {} t.eng e.val

end Sys2Proof.Machine
end

