-- ==== Sys2Proof/Machine/StateTxn.lean ====
section
/-!
DEFINITION. Accesses in flight (09 R284 to R300, 03 R75, 12 R408) and events on their way to the event log (15 R488).
-/

namespace Sys2Proof.Machine

/-- Agents that issue memory accesses (09 R284). -/
inductive Agent where
  | engine (t : TileId) (e : EngId)
  | core (t : TileId)
  | hedge (h : HedgeId)
  | laurel
  | selector (p : PortId)
  | copy (p : PortId)
  | housekeeping
  | unit (u : UnitId)
  | host (p : PortId)
  | remote (pos : Nat)
  deriving DecidableEq, Repr

/-- AMOs of the control core (09 R306). -/
inductive Amo where
  | swap | add | and | or | xor | min | max | minu | maxu
  deriving DecidableEq, Repr

/-- What an access does at its home. -/
inductive TxKind where
  | read
  | write
  /-- A combination of each enabled 4-byte element (06 R198). -/
  | combine (c : Comb)
  deriving DecidableEq, Repr

/-- Where an access is on its way. -/
inductive Stage where
  /-- A release held at the injection port (09 R297). -/
  | held
  /-- Waits for injection. -/
  | queued
  /-- On the mesh towards its home. -/
  | flying
  /-- At its home, not yet performed. -/
  | atHome
  /-- Sent to another module, no response yet (12 R410). -/
  | remote
  /-- Performed; the response is on the mesh. -/
  | responding
  /-- A cacheable response at the reader's cache (03 R96), or a stream or descriptor grain at its reader. -/
  | returned
  deriving DecidableEq, Repr

/-- What a response serves. -/
inductive TxFor where
  /-- Pieces of inbound grains of a tile's operation: grain number and offset of each. -/
  | inbound (t : TileId) (op : Nat) (targets : List (Nat × Nat))
  /-- An acknowledgement that a tile's operation awaits. -/
  | outbound (t : TileId) (op : Nat)
  /-- A descriptor grain for a queued command. -/
  | desc (t : TileId) (e : EngId) (idx : Nat)
  /-- Words of a stream, from a byte offset of its rest. -/
  | stream (h : HedgeId) (launch : Nat) (off : Nat)
  /-- A control core's store or AMO. -/
  | store (t : TileId)
  /-- A piece of an operation's copy: operation, byte offset in the host range, first of the grain. -/
  | copy (op : Nat) (off : Nat)
  /-- A Privet unit's result. -/
  | result (u : UnitId)
  /-- A piece of a host's read through the aperture: read and byte offset in it (10 R321). -/
  | host (read off : Nat)
  /-- The spill of a log record (15 R492): its LOG_SEQ. -/
  | spill (seq : Nat)
  /-- Nothing waits. -/
  | posted
  /-- A grain of a remote module's request. -/
  | briar (req slot : Nat)
  deriving DecidableEq, Repr

/-- A release tag found at a home (09 R304): scope, ring position, releaser's tile or block. -/
structure RelTag where
  scope : Nat
  pos : Nat
  who : Agent
  deriving DecidableEq, Repr

/-- An access in flight, of at most one grain. -/
structure Txn where
  id : Nat
  agent : Agent
  kind : TxKind
  dest : FarAddr
  len : Nat
  data : Piece := {}
  part : Option Nat := none
  stage : Stage := .queued
  fill : Bool := false
  rel : Option Nat := none
  acq : Option Nat := none
  rtally : Option (Fin 8) := none
  /-- 0 OK, 1 UNMAPPED, 2 ACCESS_DENIED, 3 UNREACHABLE, 4 TIMEOUT, 5 bus error, 6 CHECK_PAGE (12 R411, 15 R472, 07 R226). -/
  status : Nat := 0
  unchecked : Bool := false
  tag : Option RelTag := none
  /-- The order of a tile's accesses (09 R297): BEAT_COUNT at the issue of the operation or instruction. -/
  sentAt : Nat := 0
  /-- The packet it was injected in (03 R77). -/
  pkt : Nat := 0
  /-- Its packet has been granted and charged (07 R239). -/
  paid : Bool := false
  /-- The Briar port, E1, E2, W1, W2, by which it leaves for another module, or by which another module's request came (03 R72). -/
  via : Nat := 0
  /-- The grain of the DMA engine's outbound buffer that it leaves (04 R120). -/
  slot : Option Nat := none
  /-- Its line has been invalidated since it was asked for: it fills no line (09 R291). -/
  stale : Bool := false
  /-- How often its tile's cache had been invalidated in full when it was asked for. -/
  gen : Nat := 0
  purpose : TxFor
  deriving DecidableEq, Repr

/-- An event before it is recorded (15 R488): code, source, arguments, and what the intake stamps: time and step. -/
structure Ev where
  code : Nat
  source : Nat
  args : List Nat
  time : Nat := 0
  step : Nat := 0
  deriving DecidableEq, Repr

end Sys2Proof.Machine
end

