-- ==== Sys2Proof/Machine/Flags.lean ====
section
/-!
DEFINITION. The counts, marks and error flags that a tile's operations leave: saturating counters with their hidden
increments (03 R103, 15 R493), scratchpad words with check bits (03 R86 to R88, 15 R478), poison (15 R473 to R476),
hazard traps (04 R130 to R133).
-/

namespace Sys2Proof.Machine

/-! ## Counter offsets in a tile's 4 KiB: control block from 0, schedule block from 0x100 -/

def cWriteLost : Nat := 0x40
def cReadCollision : Nat := 0x44
def cMisaligned : Nat := 0x48
def cSpCorr : Nat := 0x4C
def cSpUncorr : Nat := 0x50
def cCacheHit : Nat := 0x54
def cCacheMiss : Nat := 0x58
def cCacheCorr : Nat := 0x5C
def cCacheUncorr : Nat := 0x60
def cCoreCorr : Nat := 0x64
def cCoreUncorr : Nat := 0x68
def cHoldLongest : Nat := 0x110
def cKernelFaults : Nat := 0x114
def cRegLost : Nat := 0x118
def cBcastDiscard : Nat := 0x11C
def cClampLow : Nat := 0x130
def cClampHigh : Nat := 0x134
def cCoalesced : Nat := 0x138
def cDescBad : Nat := 0x13C
def cScopeMismatch : Nat := 0x160
def cPoisonIn : Nat := 0x168

/-- Add to a 32-bit saturating counter of a tile and to its hidden increment (15 R493). -/
def Tile.bump (t : Tile) (off n : Nat) : Tile :=
  if n = 0 then t
  else { t with ctl := { t.ctl with
          cnt := SMap.mod 0 t.ctl.cnt off (satAdd 32 · n)
          hidden := SMap.mod 0 t.ctl.hidden off (satAdd 32 · n) } }

/-- A counter's value. -/
def Tile.count (t : Tile) (off : Nat) : Nat := SMap.get 0 t.ctl.cnt off

/-- Set a bit of TILE_FAULT (03 R103). -/
def Tile.faultBit (t : Tile) (bit : Nat) : Tile :=
  { t with ctl := { t.ctl with fault := t.ctl.fault ||| 2 ^ bit } }

/-- A tile at work within one step, with the events it posts, the accesses it asks for, and the parity errors it meets (OD 0x7042.04). -/
structure Work where
  t : Tile
  evs : List Ev := []
  reqs : List Txn := []
  parity : Nat := 0
  /-- Folds sent to scale slots (05 R168): slot and FP32 magnitude. -/
  folds : List (Nat × Nat) := []
  /-- Scratchpad grains that plain writes have changed: their release tags go (09 R304). -/
  wrote : List Nat := []
  /-- Die grains that an engine of the tile has a write for which has not entered the mesh yet, by engine (09 R290). -/
  unsent : List (Nat × Nat) := []
  deriving DecidableEq, Repr

def Work.bump (w : Work) (off n : Nat) : Work := { w with t := w.t.bump off n }

def Work.post (w : Work) (e : Ev) : Work := { w with evs := w.evs ++ [e] }

def Work.ask (w : Work) (q : Txn) : Work := { w with reqs := w.reqs ++ [q] }

/-- An uncorrectable word of memory `m` of R478's table found by a tile: its event (15 R478, R489). -/
def sramUncorr (source m loc : Nat) : Ev := { code := 0x34, source := source, args := [m, loc] }

/-! ## Saturation (05 R171) -/

/-- Class codes 6 and 7 count as OUT. -/
def satClass (c : Nat) : Nat := if 6 ≤ c then 3 else c

/-- Count saturations of a class in the kernel in progress (05 R172). -/
def Tile.saturate (t : Tile) (cls n : Nat) : Tile :=
  if n = 0 then t
  else { t with kern := { t.kern with sat := SMap.mod 0 t.kern.sat (satClass cls) (satAdd 32 · n) } }

/-! ## The scratchpad's words -/

/-- Last grain of the scratchpad. -/
def topGrain : Nat := 32767

/-- A read of one 64-bit word's check bits: is it delivered poisoned, and what is counted (15 R478). -/
def Work.checkWord (w : Work) (tile : Nat) (word : Nat) : Bool × Work :=
  match SMap.get 0 w.t.words word with
  | 0 => (false, w)
  | 1 => (true, w)
  | 2 => (false, w.bump cSpCorr 1)
  | _ => (true, ({ w with t := (w.t.bump cSpUncorr 1).faultBit 1 }).post (sramUncorr tile 1 (8 * word)))

/-- Check several words. -/
def Work.checkWords (w : Work) (tile : Nat) : List Nat → Bool × Work
  | [] => (false, w)
  | x :: xs =>
    let a := w.checkWord tile x
    let b := a.2.checkWords tile xs
    (a.1 || b.1, b.2)

/-- Read one grain of the scratchpad at its bank: data, poisoned when any of its words is (15 R473). -/
def Work.readGrain (w : Work) (tile g : Nat) : Piece × Work :=
  let r := w.checkWords tile ((List.range 8).map (8 * g + ·))
  (⟨w.t.scratch.read (64 * g) 64, r.1⟩, r.2)

/-- The check bits of a word after bytes of it are written (03 R88): a partial write reads the word first. -/
def Work.writeWord (w : Work) (tile word : Nat) (whole poison : Bool) : Work :=
  let old := SMap.get 0 w.t.words word
  let w := if whole then w
    else if old = 2 then w.bump cSpCorr 1
    else if old = 3 then ({ w with t := (w.t.bump cSpUncorr 1).faultBit 1 }).post (sramUncorr tile 1 (8 * word))
    else w
  let stays := !whole && (old == 1 || old == 3)
  { w with t := { w.t with words := SMap.set 0 w.t.words word (if poison || stays then 1 else 0) } }

/-- Write bytes at a scratchpad address, inside the scratchpad: words, then data. -/
def Work.writeBytes (w : Work) (tile a : Nat) (d : Piece) : Work :=
  let n := d.bytes.length
  if n = 0 then w
  else
    let first := a / 8
    let last := (a + n - 1) / 8
    let w := (List.range (last + 1 - first)).foldl (fun w i =>
      let word := first + i
      w.writeWord tile word (decide (a ≤ 8 * word) && decide (8 * word + 8 ≤ a + n)) d.poison) w
    { w with t := { w.t with scratch := w.t.scratch.write a d.bytes }, wrote := (List.range ((a + n - 1) / 64 + 1 - a / 64)).map (a / 64 + ·) ++ w.wrote }

/-- One word of an atomic is read and written inside the write port, as a partial-word write is (03 R88, R94). -/
def Work.atomicWord (w : Work) (tile word : Nat) (performed poison : Bool) : Work :=
  let put (w : Work) (c : Nat) : Work := { w with t := { w.t with words := SMap.set 0 w.t.words word c } }
  match SMap.get 0 w.t.words word with
  | 0 => put w (b2n (performed && poison))
  | 1 => w
  | 2 => if performed then put (w.bump cSpCorr 1) (b2n poison) else w.bump cSpCorr 1
  | _ => put (({ w with t := (w.t.bump cSpUncorr 1).faultBit 1 }).post (sramUncorr tile 1 (8 * word))) 1

/-- An atomic on `n` bytes at a scratchpad address: each word it touches is met once; the old bytes, poisoned where a word is, and then nothing is written. -/
def Work.atomicBytes (w : Work) (tile a n : Nat) (poison : Bool) (f : List Byte → List Byte) : Piece × Work :=
  let old := w.t.scratch.read a n
  let words := if n = 0 then [] else (List.range ((a + n - 1) / 8 + 1 - a / 8)).map (a / 8 + ·)
  let bad := words.any fun x => SMap.get 0 w.t.words x == 1 || SMap.get 0 w.t.words x == 3
  let w := words.foldl (fun w x => w.atomicWord tile x (!bad) poison) w
  if bad then (⟨old, true⟩, w) else (⟨old, false⟩, { w with t := { w.t with scratch := w.t.scratch.write a (f old) } })

/-- A grain read poisoned by the tile's engines (15 R476). -/
def Work.poisonIn (w : Work) (n : Nat) : Work :=
  if n = 0 then w
  else { w with t := { w.t.bump cPoisonIn n with kern := { w.t.kern with poisoned := true } } }

/-! ## Hazards -/

/-- The fault that ends the kernel at the close of this beat: the lowest code met (04 R134). -/
def Tile.meet (t : Tile) (code : Nat) : Tile :=
  { t with kern := { t.kern with pend := if t.kern.pend = 0 then code else min t.kern.pend code } }

/-- A fault arises in the kernel in progress: it ends the kernel as the beat closes (04 R134). -/
def Work.meetFault (w : Work) (code : Nat) : Work :=
  if w.t.kern.inKernel && !w.t.kern.stopped then { w with t := w.t.meet code } else w

/-- First location of a range that two accesses share: a scratchpad word (a multiple of 8), or a register, row or buffer number. -/
def wordDown (space a : Nat) : Nat := if space = 0 then a / 8 * 8 else a

/-- The end of a range in whole locations. -/
def wordUp (space a : Nat) : Nat := if space = 0 then cdiv a 8 * 8 else a

/-- Is a tag set, in this beat, on a location of the range (04 R129, R130)? A read in the beat of issue does not see it. -/
def HTag.setOn (g : HTag) (k space lo hi : Nat) : Bool :=
  g.space == space && decide (g.issue < k) && decide (k < g.land)
    && decide (wordDown space g.lo < wordUp space hi) && decide (wordDown space lo < wordUp space g.hi)

/-- The tag on which a read with new intent traps, with its location: the lowest tagged location of the read, of its pending writes the one issued last. -/
def Tile.tagFor (t : Tile) (space lo hi : Nat) : Option (HTag × Nat) :=
  (t.htags.filter (·.setOn t.sched.kbeat space lo hi)).foldl (fun best g =>
    let loc := max (wordDown space lo) (wordDown space g.lo)
    match best with
    | some b => if loc < b.2 then some (g, loc) else best
    | none => some (g, loc)) none

/-- A read with intent `isNew` of a location: the trap of 04 R132 where its tag is set. -/
def Tile.checkRead (t : Tile) (isNew : Bool) (eng : EngId) (cmd space lo hi : Nat) : Tile :=
  if t.kern.hawthorn && isNew then
    match t.tagFor space lo hi with
    | none => t
    | some (g, loc) =>
      let t' :=
        if t.hazard.valid then
          if t.kern.stopped || t.kern.pend == 2 then t.bump cKernelFaults 1 else t
        else
          { t with hazard :=
            { valid := true, reader := eng.val, writer := g.eng.val, space := space, readCmd := cmd % 65536
              readBeat := t.sched.kbeat % 2 ^ 32, writeIssue := g.issue % 2 ^ 32, writeLand := g.land % 2 ^ 32
              location := loc, writeCmd := g.cmd % 65536, kernelId := t.kern.kernelId } }
      if t.kern.stopped then t' else t'.meet 2
  else t

/-- Tag a location that an operation issued now will write in beat `land` (04 R129). -/
def Tile.tagWrite (t : Tile) (eng : EngId) (cmd space lo hi land : Nat) : Tile :=
  if t.kern.hawthorn then
    { t with htags := ⟨space, lo, hi, eng, cmd, t.sched.kbeat, land⟩ :: t.htags }
  else t

end Sys2Proof.Machine
end

