-- ==== Sys2Proof/Machine/Lanes.lean ====
section
/-!
DEFINITION. The arithmetic of the tensor and vector engines on whole registers and rows (05 R150 to R163, 15 R474).
A poisoned element is computed on like any other, is never counted and never folded.
-/

namespace Sys2Proof.Machine

/-! ## Registers -/

/-- The 512 bytes of a vector register. -/
def Tile.vbytes (t : Tile) (r : Nat) : List Byte := t.vreg.read (512 * r) 512

/-- The poison flag of grain `g` of a register. -/
def Tile.vpoison (t : Tile) (r g : Nat) : Bool := SMap.get false t.vregPoison (8 * r + g)

/-- A word of an accumulator row. -/
def Tile.accWord (t : Tile) (row col : Nat) : Nat := SMap.get 0 t.acc (64 * row + col)

def Tile.accFlag (t : Tile) (row : Nat) : Bool := SMap.get false t.accPoison row

/-! ## Vector lanes (05 R160, R161) -/

/-- Lane width in bytes. -/
def laneBytes (half : Bool) : Nat := if half then 2 else 4

def laneCount (half : Bool) : Nat := if half then 256 else 128

def laneFp (half : Bool) : Fp := if half then bf16 else fp32

/-- The codes of a register's lanes. -/
def lanes (half : Bool) (b : List Byte) : List Nat :=
  (chunksOf (laneBytes half) (laneCount half) b).map leNat

/-- A code with an infinite value. -/
def isInfCode (f : Fp) (c : Nat) : Bool := f.infCode == some (c % 2 ^ (f.width - 1))

/-- Round an FP32 code to BF16 in the 256-lane form. -/
def toLane (half : Bool) (c : Nat) : Nat := if half then (bf16.roundIeee false (ofF32 c)).1 else c

/-- A BF16 code as FP32, or an FP32 code as it is. -/
def fromLane (half : Bool) (c : Nat) : Word32 := BitVec.ofNat 32 (if half then c * 65536 else c)

/-- The comparison of VCMP. -/
def relHolds (r : Rel) (x y : Num) : Bool :=
  match r with
  | .eq => x.eqv y
  | .ne => !x.eqv y
  | .lt => x.lt y
  | .le => x.lt y || x.eqv y
  | .gt => y.lt x
  | .ge => y.lt x || x.eqv y

/-- VCMP's lane pattern: bit 0 tells true from false, the rest is open (log 14). -/
def maskCode (half : Bool) (v : Bool) : Nat :=
  let w := (Config.maskPattern v).toNat % 2 ^ (8 * laneBytes half)
  w / 2 * 2 + b2n v

/-- A result rounded once to the lane, and whether it leaves FP32's range (05 R161: class ACC counts FP32 overflow in either form). -/
def laneRound (half : Bool) (x : Num) : Nat × Bool := (((laneFp half).roundIeee false x).1, (fp32.roundIeee false x).2)

/-- One lane of a transcendental: the FP32 result rounded to the lane, and whether that FP32 result overflows (05 R161). -/
def laneFn (half : Bool) (f : Word32 → Nat) (a : Nat) : Nat × Bool :=
  let y := f (fromLane half a)
  let x := (laneFp half).decode a
  (toLane half y, isInfCode fp32 y && (match x with | .fin _ _ => true | _ => false))

/-- One lane of a lane-wise operation: result and whether FP32 overflow counts. -/
def laneOp (op : VOp) (half : Bool) (a b c : Nat) : Nat × Bool :=
  let f := laneFp half
  let x := f.decode a
  let y := f.decode b
  let z := f.decode c
  match op with
  | .add => laneRound half (x.add y)
  | .mul => laneRound half (x.mul y)
  | .fma => laneRound half ((x.mul y).add z)
  | .max => laneRound half (x.max y)
  | .min => laneRound half (x.min y)
  | .cmp r => (maskCode half (relHolds r x y), false)
  | .sel => (if a % 2 = 1 then b else c, false)
  | .exp => laneFn half f32Exp a
  | .rcp => laneFn half f32Rcp a
  | .rsqrt => laneFn half f32Rsqrt a
  | .silu => laneFn half f32Silu a
  | .redSum => (a, false)
  | .redMax => (a, false)

/-- How many source registers an operation reads. -/
def vecArity : VOp → Nat
  | .add | .mul | .max | .min | .cmp _ => 2
  | .fma | .sel => 3
  | .exp | .rcp | .rsqrt | .silu | .redSum | .redMax => 1

/-- The result of VREDUCE: code and overflow (05 R160, R161). -/
def reduce (isMax half : Bool) (l : List Nat) : Nat × Bool :=
  let f := laneFp half
  if isMax then
    let m := (l.map f.decode).foldl (fun (acc : Option Num) x => some (match acc with | none => x | some y => y.max x)) none
    (((laneFp half).roundIeee false (m.getD .nan)).1, false)
  else
    let s := treeSum (if half then 8 else 7) (l.map fun c => (fromLane half c).toNat)
    (toLane half s, isInfCode fp32 s && l.all fun c => !(f.decode c).isInf && !(f.decode c).isNan)

/-- The result of a lane operation on three registers: bytes, poison per grain, class ACC counts. For VREDUCE the bytes are lane 0. -/
def vecResult (op : VOp) (half : Bool) (a b c : List Byte) (pa pb pc : List Bool) : List Byte × List Bool × Nat :=
  let n := laneBytes half
  let reducing := op == .redSum || op == .redMax
  if reducing then
    let p := pa.any id
    let r := reduce (op == .redMax) half (lanes half a)
    (leBytes n r.1, [p], if r.2 && !p then 1 else 0)
  else
    let la := lanes half a
    let lb := lanes half b
    let lc := lanes half c
    let rs := (List.range (laneCount half)).map fun i => laneOp op half (la.getD i 0) (lb.getD i 0) (lc.getD i 0)
    let ps := (List.range 8).map fun g =>
      pa.getD g false || (decide (2 ≤ vecArity op) && pb.getD g false) || (decide (3 ≤ vecArity op) && pc.getD g false)
    let count := ((List.range (laneCount half)).filter fun i =>
      (rs.getD i (0, false)).2 && !ps.getD (i * n / 64) false).length
    (rs.flatMap fun r => leBytes n r.1, ps, count)

/-! ## Narrowing, shared by VCVT and TSTORE (05 R151, R152, R159, R168) -/

/-- An exact magnitude as a fold sends it: FP32, an inexact one rounded one way or the other, one beyond FP32 as its largest finite value (DESIGN CHOICE: log 16). -/
def foldCode (x : Num) : Nat :=
  match x.abs with
  | .fin m e =>
    let lo := min (fp32.roundMag true m.natAbs 1 e) 0x7F7FFFFF
    if (ofF32 lo).eqv (.fin m e) then lo
    else if Config.foldUp lo then min (lo + 1) 0x7F7FFFFF else lo
  | _ => 0

/-- Narrowed elements: codes, saturations in the command's class, overflows in class ACC, largest fold. -/
structure Narrowed where
  codes : List Nat := []
  sat : Nat := 0
  acc : Nat := 0
  /-- The largest finite magnitude of an input that is not poisoned; none where no input is such. -/
  fold : Option Nat := none
  deriving DecidableEq, Repr

/-- Narrow values (each with its poison) into a format, dividing by 2^e first; a poisoned one is not counted or folded. -/
def narrowAll (fmt : Nat) (rz : Bool) (e zo : Int) (xs : List (Num × Bool)) : Narrowed :=
  xs.foldl (fun r x =>
    let n := narrowTo fmt rz zo (x.1.scale (-e))
    { codes := r.codes ++ [n.1]
      sat := r.sat + (if n.2.1 && !x.2 then 1 else 0)
      acc := r.acc + (if n.2.2 && !x.2 then 1 else 0)
      fold := if x.2 || x.1.isNan || x.1.isInf then r.fold else some (max (r.fold.getD 0) (foldCode x.1)) }) {}

/-- The exponent a narrowing divides by: formats without a tensor exponent carry none (05 R145, R151). -/
def targetExp (fmt : Nat) (exp : BitVec 8) (slot : Bool) : Int := if fmt ≤ 2 && !slot then 0 else exp.toInt

/-! ## VCVT (05 R150 to R152) -/

/-- Lanes converted: 128 if either side is FP32, else 256 (log 16). -/
def cvtLanes (src dst : Nat) : Nat := if src = 0 || dst = 0 then 128 else 256

/-- Widen the elements of a source register; MX scale bytes stand from byte 448 (05 R162). -/
def cvtSource (src : Nat) (exp zp : BitVec 8) (n : Nat) (b : List Byte) (p : List Bool) : List (Num × Bool) :=
  (List.range n).map fun i =>
    let byte := i * elemBits src / 8
    let sc := if isMx src then some (b.getD (448 + i / 32) 0#8) else none
    (widen src zp.toNat exp.toInt sc (elemCode src b i),
     p.getD (byte / 64) false || (isMx src && p.getD 7 false))

/-- VCVT's register bytes, poison flags and counts. -/
def cvtResult (src dst : Nat) (srcExp srcZp dstExp : BitVec 8) (rz slot : Bool) (b : List Byte) (p : List Bool) :
    List Byte × List Bool × Narrowed :=
  let n := cvtLanes src dst
  let xs := cvtSource src srcExp srcZp n b p
  let r := narrowAll dst rz (targetExp dst dstExp slot) 0 xs
  let out := packCodes dst r.codes
  let bytes := out ++ (List.range (512 - out.length)).map fun i => Config.vcvtRest (out.length + i)
  let flags := (List.range 8).map fun g =>
    (List.range n).any fun i => decide (i * elemBits dst / 8 / 64 = g) && (xs.getD i (.nan, false)).2
  (bytes, flags, r)

/-! ## VSCALE (05 R162, R163) -/

/-- emax of the element formats. -/
def mxEmax (fmt : Nat) : Int := if fmt = 5 then 8 else if fmt = 6 then 15 else 2

/-- ⌊log2⌋ of a finite magnitude. -/
def floorLog2 : Num → Int
  | .fin m e => (Nat.log2 m.natAbs : Int) + e
  | _ => 0

/-- One block of 32: scale byte, element codes, clips. -/
def mxBlock (fmt : Nat) (rz : Bool) (xs : List Num) : Nat × List Nat × Nat :=
  if xs.any fun x => x.isNan || x.isInf then (0xFF, xs.map fun _ => 0, 0)
  else
    let a := (xs.map Num.abs).foldl (fun m x => if m.lt x then x else m) (.zero false)
    if a.isZero then (0, xs.map fun _ => 0, 0)
    else
      let x0 := max (-127) (floorLog2 a - mxEmax fmt)
      let f := (fpOf fmt).getD e2m1
      let top := f.decode f.maxCode
      let rs := xs.map fun x =>
        let q := x.scale (-x0)
        if top.lt q.abs then (f.sign q.neg? f.maxCode, 1) else ((f.narrow rz q).1, 0)
      ((x0 + 127).toNat, rs.map (·.1), (rs.map (·.2)).foldl (· + ·) 0)

/-- VSCALE's register bytes, poison flags, clips. A poisoned block is not counted. -/
def scaleResult (half : Bool) (fmt : Nat) (rz : Bool) (b : List Byte) (p : List Bool) : List Byte × List Bool × Nat :=
  let blocks := laneCount half / 32
  let xs := (lanes half b).map (laneFp half).decode
  let bad := (List.range blocks).map fun k =>
    (List.range 8).any fun g => p.getD g false &&
      decide (32 * k * laneBytes half < 64 * g + 64) && decide (64 * g < 32 * (k + 1) * laneBytes half)
  let rs := (List.range blocks).map fun k => mxBlock fmt rz ((xs.drop (32 * k)).take 32)
  let elems := packCodes fmt (rs.flatMap fun r => r.2.1)
  let body := padTo 448 elems ++ padTo 64 (rs.map fun r => BitVec.ofNat 8 r.1)
  let eb := 32 * elemBits fmt / 8
  let flags := (List.range 8).map fun g =>
    (List.range blocks).any fun k => bad.getD k false && (g == 7 || k * eb / 64 == g)
  (body, flags, ((List.range blocks).map fun k => if bad.getD k false then 0 else (rs.getD k (0, [], 0)).2.2).foldl (· + ·) 0)

/-! ## What a command can express (05 R145, R151, R153, R162) -/

/-- The formats that a narrowing command can name: those without a block scale (05 R151). -/
def narrowTarget (fmt : Nat) : Bool := decide (fmt ≤ 9) && !isMx fmt

/-- The pairings that a command can express (05 R153). -/
def modePair (mov stat : Nat) : Bool :=
  match mov with
  | 3 | 4 | 5 | 6 => stat == 3 || stat == 4 || stat == 5 || stat == 6 || stat == 7
  | 7 => stat == 7
  | 8 => stat == 8 || stat == 9
  | 9 => stat == 9
  | 1 => stat == 1
  | 2 => stat == 2
  | _ => false

/-- Can a command name its formats and exponents: TLOAD, TMUL's pair, the targets of TSTORE, VCVT and VSCALE (05 R145, R151, R153, R162)? A tensor exponent of −128 is
refused wherever it is met (05 R146). -/
def opExpressible (op : EngOp) : Bool :=
  match op with
  | .tload f _ _ _ _ => decide (1 ≤ f.val) && decide (f.val ≤ 9)
  | .tmul m s _ _ _ mx sx _ _ _ _ _ => modePair m.val s.val && mx != 0x80#8 && sx != 0x80#8
  | .tstore _ _ _ f _ e _ _ _ _ _ => narrowTarget f.val && e != 0x80#8
  | .vcvt _ _ src dst se _ de _ _ _ _ => decide (src.val ≤ 9) && narrowTarget dst.val && se != 0x80#8 && de != 0x80#8
  | .vscale _ _ _ f _ _ => isMx f.val
  | _ => true

/-! ## The tensor engine (05 R153 to R159) -/

/-- Is a pair of formats one of the integer modes? -/
def intMode (mov : Nat) : Bool := mov == 8 || mov == 9

/-- e(m): the beat of moving row `m` after issue (04 R120). -/
def rowBeat (mov m : Nat) : Nat :=
  if elemBits mov = 4 then m / 2 else if elemBits mov = 16 then 4 * m else m

/-- Bytes of a row of 64 elements. -/
def rowBytes (fmt : Nat) : Nat := 64 * elemBits fmt / 8

/-- Element (row, column) of a stationary buffer as a format's raw code. A buffer not loaded since a cold start is zero at every width (16 R505). -/
def Stat.code (s : Stat) (fmt row col : Nat) : Nat :=
  if s.width = 0 then 0
  else if s.width = elemBits fmt then elemCode fmt ((s.bytes.drop (row * rowBytes fmt)).take (rowBytes fmt)) col
  else Config.strayElem row col % 2 ^ elemBits fmt

/-- Scale byte of an element of a stationary buffer: two to a row (06 R181). -/
def Stat.scale (s : Stat) (row col : Nat) : Byte :=
  if s.width = 0 then 0#8
  else if s.mx then s.scales.getD (2 * row + col / 32) 0#8 else BitVec.ofNat 8 (Config.strayElem row (1000 + col / 32))

/-- The widened elements of a row of a stationary buffer. -/
def Stat.row (s : Stat) (fmt : Nat) (exp zp : BitVec 8) (r : Nat) : List Num :=
  (List.range 64).map fun c =>
    widen fmt zp.toNat exp.toInt (if isMx fmt then some (s.scale r c) else none) (s.code fmt r c)

/-- The widened elements of a moving row, with its two scale bytes. -/
def movRow (fmt : Nat) (exp zp : BitVec 8) (bytes scales : List Byte) : List Num :=
  (List.range 64).map fun c =>
    widen fmt zp.toNat exp.toInt (if isMx fmt then some (scales.getD (c / 32) 0#8) else none) (elemCode fmt bytes c)

/-- Exact sum of products. -/
def dot : List Num → List Num → Num
  | [x], [y] => x.mul y
  | x :: xs, y :: ys => (x.mul y).add (dot xs ys)
  | _, _ => .zero false

/-- The 64 exact sums of a moving row with a stationary buffer; no exponent applies in the integer modes (05 R154, R156). -/
def tmulRow (mov stat : Nat) (movExp statExp movZp statZp : BitVec 8) (s : Stat) (bytes scales : List Byte) : List Num :=
  let ints := intMode mov
  let a := movRow mov (if ints then 0#8 else movExp) movZp bytes scales
  (List.range 64).map fun r => dot a (s.row stat (if ints then 0#8 else statExp) statZp r)

/-- One accumulation (05 R154 to R156): new word, and whether class ACC counts it. -/
def accumulate (ints : Bool) (old : Nat) (x : Num) : Nat × Bool :=
  if ints then
    let v := sext 32 old + (match x with | .fin m e => roundInt false m e | _ => 0)
    let hi : Int := 2 ^ 31 - 1
    let lo : Int := -(2 ^ 31)
    if hi < v then (toBits 32 hi, true) else if v < lo then (toBits 32 lo, true) else (toBits 32 v, false)
  else fp32.roundIeee false ((ofF32 old).add x)

/-- The values that TSTORE narrows from a row of accumulators: acc, or acc × m from INT32 (05 R159). -/
def storeValues (intAcc : Bool) (mult : Word32) (words : List Nat) : List Num :=
  words.map fun w => if intAcc then (Num.ofInt (sext 32 w)).mul (ofF32 mult.toNat) else ofF32 w

/-- TSTORE's narrowed row. -/
def storeRow (intAcc : Bool) (fmt : Nat) (rz : Bool) (exp : BitVec 8) (slot : Bool) (mult : Word32) (zo : BitVec 8)
    (poison : Bool) (words : List Nat) : Narrowed :=
  let e : Int := if intAcc && !slot then 0 else targetExp fmt exp slot
  let z : Int := if intAcc && (fmt == 8 || fmt == 9) then zo.toInt else 0
  narrowAll fmt rz e z ((storeValues intAcc mult words).map fun x => (x, poison))

end Sys2Proof.Machine
end

