-- ==== Sys2Proof/Machine/Operands.lean ====
section
/-!
DEFINITION. Operand forms: command addresses with their loop strides (04 R126), tensor and transfer descriptors, windows,
clamping, distribution over modules (06 R177 to R205), and the die address map (07 R206, R209, R225).
-/

namespace Sys2Proof.Machine

/-! ## The die address map -/

/-- What a die address names (07 R206). -/
inductive Place where
  /-- Tier (0 to 7 a stack, 8 the board tier) and offset in it. -/
  | tier (k off : Nat)
  | scratch (t off : Nat)
  | control (off : Nat)
  | unmapped
  deriving DecidableEq, Repr

/-- First die address of a tile's scratchpad. -/
def scratchBase (t : Nat) : Nat := 0xC000000000 + t * 0x200000

/-- First die address of the control range. -/
def controlBase : Nat := 0xF000000000

/-- First die address of a tier. -/
def tierBase (k : Nat) : Nat := if k < 8 then k * 0x1000000000 else 0x8000000000

/-- Decode a die address (07 R206). -/
def placeOf (a : Nat) : Place :=
  if a < 0x8000000000 then .tier (a / 0x1000000000) (a % 0x1000000000)
  else if a < 0x8C00000000 then .tier 8 (a - 0x8000000000)
  else if 0xC000000000 ≤ a ∧ a < 0xC010000000 then
    .scratch ((a - 0xC000000000) / 0x200000) ((a - 0xC000000000) % 0x200000)
  else if controlBase ≤ a ∧ a < 0x10000000000 then .control (a - controlBase)
  else .unmapped

/-! ## Command addresses -/

/-- Sum of strides times loop indices, outermost first (04 R126). -/
def strideSum : List Int → List Nat → Int
  | s :: ss, i :: is => s * (i : Int) + strideSum ss is
  | _, _ => 0

/-- A die address of a command in its loop place, modulo 2^64. -/
def dieOf (a : Addr) (idx : List Nat) : Nat := toBits 64 ((a.base : Int) + strideSum a.strides idx)

/-- A tile-local address of a command in its loop place, modulo 2^32. -/
def locOf (a : Addr) (idx : List Nat) : Nat := toBits 32 ((a.base : Int) + strideSum a.strides idx)

/-- Cut a byte span into pieces that stay inside one 64-byte grain: offset in the span and length. -/
def grainCuts : Nat → Nat → Nat → List (Nat × Nat)
  | 0, _, _ => []
  | fuel + 1, a, n =>
    if n = 0 then []
    else
      let m := min n (64 - a % 64)
      (0, m) :: (grainCuts fuel (a + m) (n - m)).map fun p => (p.1 + m, p.2)

/-- Pieces of a span of `n` bytes at `a`. -/
def spanCuts (a n : Nat) : List (Nat × Nat) := grainCuts (n / 64 + 2) a n

/-! ## Tensor descriptors -/

/-- One dimension of a distribution extension (06 R201). -/
structure DimExt where
  size : Nat
  mode : Nat
  parts : Nat
  block : Nat
  deriving DecidableEq, Repr

/-- A tensor descriptor as read (06 R182), dimension 0 being C; its extension where DIST is 1. -/
structure TDesc where
  base : Nat
  fmt : Nat
  dims : Nat
  cacheable : Bool
  zp : Nat
  exp : Nat
  slotEn : Bool
  slot : Nat
  cls : Nat
  rz : Bool
  dist : Bool
  isLocal : Bool
  sizes : List Nat
  strides : List Nat
  scaleBase : Nat
  ext : List DimExt
  first : Nat
  deriving DecidableEq, Repr

/-- Parse a descriptor grain and its extension grain. -/
def TDesc.parse (d e : List Byte) : TDesc :=
  let w := fieldAt d 8 8
  { base := fieldAt d 0 8, fmt := bits w 0 4, dims := bits w 4 3, cacheable := w.testBit 7
    zp := bits w 8 8, exp := bits w 16 8, slotEn := w.testBit 24, slot := bits w 25 10, cls := bits w 35 3
    rz := w.testBit 38, dist := w.testBit 39, isLocal := w.testBit 40
    sizes := [0x10, 0x18, 0x20, 0x28, 0x30].map (fieldAt d · 4)
    strides := [0x14, 0x1C, 0x24, 0x2C, 0x34].map (fieldAt d · 4)
    scaleBase := fieldAt d 0x38 8
    ext := if w.testBit 39 then
      (List.range 5).map fun k =>
        let x := fieldAt e (8 * k) 8
        ⟨bits x 0 32, bits x 32 2, bits x 34 7, bits x 48 16⟩
      else []
    first := fieldAt e 0x28 1 % 64 }

/-- Does a descriptor grain announce an extension (06 R182)? -/
def descDist (d : List Byte) : Bool := (fieldAt d 8 8).testBit 39

/-- Dimensions in use, C included. -/
def TDesc.used (d : TDesc) : List Nat := List.range (d.dims + 1)

def TDesc.size (d : TDesc) (k : Nat) : Nat := if k ≤ d.dims then d.sizes.getD k 1 else 1

/-- The stride with its low bits treated as zero (06 R184). -/
def TDesc.stride (d : TDesc) (k : Nat) : Nat :=
  let v := vecBytes d.fmt
  if v = 0 then 0 else d.strides.getD k 0 / v * v

/-- Does a stride in use have low bits set? -/
def TDesc.misaligned (d : TDesc) : Bool :=
  vecBytes d.fmt != 0 && d.used.any fun k => d.strides.getD k 0 % vecBytes d.fmt != 0

/-- The extension's dimension `k`. -/
def TDesc.dim (d : TDesc) (k : Nat) : DimExt := d.ext.getD k ⟨d.size k, 0, 1, 1⟩

/-- Is the extension malformed for ring size `n` (06 R202)? -/
def TDesc.extBad (d : TDesc) (n : Nat) : Bool :=
  d.dist &&
  (((List.range 5).any fun k =>
      let x := d.dim k
      x.mode == 3 || x.parts == 0 || decide (64 < x.parts) || (x.mode == 0 && x.parts != 1)) ||
    decide (n < (d.used.map fun k => (d.dim k).parts).foldl (· * ·) 1) ||
    (let x := d.dim 0
     let v := vecElems d.fmt
     (x.mode == 2 && x.block % v != 0) || (x.mode == 1 && x.parts != 0 && cdiv x.size x.parts % v != 0)))

/-- Is the descriptor malformed: its operation is empty and DESC_BAD counts (06 R184)? -/
def TDesc.bad (d : TDesc) (n : Nat) : Bool :=
  fmtReserved d.fmt || d.exp == 0x80 || decide (4 < d.dims) ||
  (d.slotEn && !(d.fmt == 3 || d.fmt == 4 || d.fmt == 8 || d.fmt == 9)) || d.extBad n

/-- Is a dimension in use of size zero, local or global, or spread by cyclic blocks of no element (06 R184, R201, 00 R10)? -/
def TDesc.isEmpty (d : TDesc) : Bool :=
  d.used.any fun k => d.sizes.getD k 0 == 0 || (d.dist && ((d.dim k).size == 0 || ((d.dim k).mode == 2 && (d.dim k).block == 0)))

/-! ## Clamping and distribution -/

/-- An index clamped into `0 .. n-1`: value, raised, lowered (06 R186). -/
def clampIdx (i : Int) (n : Nat) : Nat × Bool × Bool :=
  if i < 0 then (0, true, false)
  else if (n : Int) - 1 < i then (n - 1, false, true)
  else (i.toNat, false, false)

/-- Part and local index of a global index (06 R203). -/
def DimExt.place (x : DimExt) (g : Nat) : Nat × Nat :=
  match x.mode with
  | 1 => let b := cdiv x.size x.parts; if b = 0 then (0, g) else (g / b, g % b)
  | 2 => if x.block = 0 then (0, g) else (g / x.block % x.parts, g / (x.block * x.parts) * x.block + g % x.block)
  | _ => (0, g)

/-- A channel vector that an access through a descriptor names: the module positions that hold it (none: this module), its
byte address, its scale bytes' address, clamp marks, the padding's first position in it, and local clamps on this module. -/
structure VecAt where
  modules : List (Option Nat)
  addr : Nat
  scale : Nat
  low : Bool
  high : Bool
  fill : Nat
  deriving DecidableEq, Repr

/-- Address of a vector by local indices, C first (06 R183). -/
def TDesc.addrOf (d : TDesc) (l : List Nat) : Nat :=
  (d.base + (d.used.map fun k => l.getD k 0 * d.stride k).foldl (· + ·) 0) % 2 ^ 64

/-- Address of a vector's scale bytes (06 R181). -/
def TDesc.scaleOf (d : TDesc) (l : List Nat) : Nat :=
  (d.scaleBase + (d.used.map fun k => l.getD k 0 * d.stride k * vecScales d.fmt / 32).foldl (· + ·) 0) % 2 ^ 64

/-- Size of a dimension in index units: vectors along C. -/
def idxSize (d : TDesc) (k size : Nat) : Nat := if k = 0 then cdiv size (vecElems d.fmt) else size

/-- The vector at signed indices `ix` (vector index along C first), for a module at position `pos` in a ring of `n` (06 R186, R203, R412). -/
def TDesc.vecAt (d : TDesc) (n pos : Nat) (write : Bool) (ix : List Int) : VecAt :=
  let v := vecElems d.fmt
  if d.dist then
    let gl := d.used.map fun k => clampIdx (ix.getD k 0) (idxSize d k (d.dim k).size)
    let pl := d.used.map fun k =>
      let g := (gl.getD k (0, false, false)).1
      if k = 0 then
        let p := (d.dim 0).place (g * v)
        (p.1, p.2 / v)
      else (d.dim k).place g
    let shard := (List.range 5).foldl (fun s k => s * (if k ≤ d.dims then (d.dim k).parts else 1) + (pl.getD k (0, 0)).1) 0
    let whole := d.used.all fun k => (d.dim k).mode == 0
    let owner := (d.first + shard) % n
    let mods : List (Option Nat) :=
      if whole then
        if write then (List.range n).map fun m => if m = pos then none else some m
        else if pos < n then [none] else [some (d.first % n)]
      else [if owner = pos then none else some owner]
    let lc := d.used.map fun k => clampIdx (((pl.getD k (0, 0)).2 : Nat) : Int) (idxSize d k (d.size k))
    let l := lc.map (·.1)
    let own := mods.any (· == none)
    let c := (gl.getD 0 (0, false, false)).1 * v
    { modules := mods, addr := d.addrOf l, scale := d.scaleOf l
      low := gl.any (·.2.1) || (own && lc.any (·.2.1)), high := gl.any (·.2.2) || (own && lc.any (·.2.2))
      fill := min v ((d.dim 0).size - c) }
  else
    let lc := d.used.map fun k => clampIdx (ix.getD k 0) (idxSize d k (d.size k))
    let l := lc.map (·.1)
    { modules := [none], addr := d.addrOf l, scale := d.scaleOf l
      low := lc.any (·.2.1), high := lc.any (·.2.2), fill := min v (d.size 0 - l.getD 0 0 * v) }

/-- Zero the padding positions of a vector's bytes (06 R178). -/
def padZero (fmt fill : Nat) (b : List Byte) : List Byte :=
  if elemBits fmt = 4 then
    let whole := fill / 2
    if fill % 2 = 1 then
      b.take whole ++ ((b.drop whole).take 1).map (· &&& 0x0F#8) ++ zeros (b.length - whole - 1)
    else b.take whole ++ zeros (b.length - whole)
  else
    let n := fill * (elemBits fmt / 8)
    b.take n ++ zeros (b.length - n)

/-! ## Windows (06 R189 to R191) -/

/-- A transfer descriptor as read. -/
structure XDesc where
  tensor : Nat
  starts : List Int
  extents : List Nat
  scales : Bool
  deriving DecidableEq, Repr

def XDesc.parse (d : List Byte) : XDesc :=
  { tensor := fieldAt d 0 8
    starts := [0x08, 0x0C, 0x10, 0x14, 0x18].map fun o => sext 32 (fieldAt d o 4)
    extents := [0x1C, 0x20, 0x24, 0x28, 0x2C].map (fieldAt d · 4)
    scales := (fieldAt d 0x30 1).testBit 0 }

/-- A window: its tensor and, for each dimension, first index and count, in vectors along C. -/
structure Window where
  d : TDesc
  starts : List Int
  counts : List Nat
  scales : Bool
  deriving DecidableEq, Repr

def Window.of (x : XDesc) (d : TDesc) : Window :=
  let v := vecElems d.fmt
  { d := d
    starts := (List.range 5).map fun k =>
      if k = 0 then (x.starts.getD 0 0).fdiv (v : Int) else if k ≤ d.dims then x.starts.getD k 0 else 0
    counts := (List.range 5).map fun k =>
      if k = 0 then cdiv (x.extents.getD 0 0) v else if k ≤ d.dims then x.extents.getD k 0 else 1
    scales := x.scales && isMx d.fmt }

/-- Does START_C have a low part (06 R189)? -/
def XDesc.misaligned (x : XDesc) (d : TDesc) : Bool := x.starts.getD 0 0 % (vecElems d.fmt : Int) != 0

/-- A whole D1 row of a gather table (06 R193): every vector of C at indices 0 of D2 to D4. -/
def Window.row (d : TDesc) (i : Int) : Window :=
  { d := d, starts := [0, i, 0, 0, 0]
    counts := [cdiv (if d.dist then (d.dim 0).size else d.size 0) (vecElems d.fmt), 1, 1, 1, 1], scales := false }

def Window.vectors (w : Window) : Nat := w.counts.foldl (· * ·) 1

/-- Bytes of the packed elements, and of the packed scales (06 R190). -/
def Window.elemBytes (w : Window) : Nat := w.vectors * vecBytes w.d.fmt
def Window.scaleBytes (w : Window) : Nat := if w.scales then w.vectors * vecScales w.d.fmt else 0

/-- Grains of the packed window. -/
def Window.grains (w : Window) : Nat := cdiv w.elemBytes 64 + cdiv w.scaleBytes 64

/-- Signed indices of vector `q` in packed order: C innermost, D4 outermost. -/
def Window.index (w : Window) (q : Nat) : List Int :=
  ((List.range 5).foldl (fun (a : List Int × Nat) k =>
    let n := w.counts.getD k 1
    (a.1 ++ [w.starts.getD k 0 + ((a.2 % n : Nat) : Int)], a.2 / n)) ([], q)).1

/-- A piece of a window inside one packed grain and one far grain: packed offset, length, far places, clamp marks counted at the
vector's first piece, and for a write which bytes are padding. -/
structure WPiece where
  off : Nat
  len : Nat
  at_ : List FarAddr
  deriving DecidableEq, Repr

/-- Pieces of a span of the packed image at `off` that lies at far address `a` of several modules. -/
def farPieces (mods : List (Option Nat)) (a off n : Nat) : List WPiece :=
  (spanCuts a n).flatMap fun p =>
    (spanCuts (off + p.1) p.2).map fun q =>
      ⟨off + p.1 + q.1, q.2, mods.map fun m => ⟨m, a + p.1 + q.1⟩⟩

/-- The vectors of a window whose packed bytes lie below `limit` grains. -/
def Window.refs (w : Window) (n pos limit : Nat) (write : Bool) : List (Nat × VecAt) :=
  let vb := vecBytes w.d.fmt
  let count := if vb = 0 then 0 else min w.vectors (cdiv (64 * limit) vb)
  (List.range count).map fun q => (q, w.d.vecAt n pos write (w.index q))

/-- All pieces of the first `limit` packed grains: elements, then scale bytes in new grains (06 R190, R191). -/
def Window.pieces (w : Window) (n pos limit : Nat) (write : Bool) : List WPiece :=
  let refs := w.refs n pos limit write
  let vb := vecBytes w.d.fmt
  let eg := cdiv w.elemBytes 64
  let elems := refs.flatMap fun r => farPieces r.2.modules r.2.addr (r.1 * vb) vb
  let s := vecScales w.d.fmt
  let sc := if w.scales then
      ((List.range w.vectors).flatMap fun q =>
        let r := w.d.vecAt n pos write (w.index q)
        farPieces r.modules r.scale (64 * eg + q * s) s)
    else []
  (elems ++ sc).filter fun p => decide (p.off + p.len ≤ 64 * limit)

/-- Clamped vectors of a window: CLAMP_LOW and CLAMP_HIGH counts (06 R186). -/
def clampCounts (l : List VecAt) : Nat × Nat :=
  (l.countP (·.low), l.countP fun v => v.high && !v.low)

/-- The packed image of a write with padding positions zeroed (06 R178). -/
def Window.padImage (w : Window) (n pos limit : Nat) (img : List Byte) : List Byte :=
  let vb := vecBytes w.d.fmt
  let s := vecScales w.d.fmt
  let eg := cdiv w.elemBytes 64
  (w.refs n pos limit true).foldl (fun img r =>
    let fill := r.2.fill
    if fill < vecElems w.d.fmt then
      let img := putAt img (r.1 * vb) (padZero w.d.fmt fill ((img.drop (r.1 * vb)).take vb))
      if w.scales then
        (List.range s).foldl (fun img b =>
          if fill ≤ 32 * b then putAt img (64 * eg + r.1 * s + b) [0#8] else img) img
      else img
    else img) img

end Sys2Proof.Machine
end

