-- ==== Sys2Proof/Machine/Timeline.lean ====
section
/-!
DEFINITION. The engines' timelines: queues, loop units, spans, holds (04 R113 to R116, R126 to R128), the reads and landings
of a beat with their collisions (03 R87 to R93, 04 R121 to R125), kernel faults and kernel end (04 R119, R134).
-/

namespace Sys2Proof.Machine

/-! ## Loop unit -/

/-- Close the loop levels that end at `p`: go round again, or fall out to the enclosing level (04 R127). -/
def wrapFrames : List LoopFrame → Nat → List LoopFrame × Nat
  | [], p => ([], p)
  | f :: fs, p =>
    if p = f.start + f.len then
      if f.index + 1 < f.count then ({ f with index := f.index + 1 } :: fs, f.start) else wrapFrames fs p
    else (f :: fs, p)

/-- Drop what a skipped body leaves in the queue, and capture the body's next command in the loop buffer. -/
def Engine.norm (e : Engine) : Engine :=
  if e.frames.isEmpty then
    { e with queue := e.queue.drop e.skip, skip := e.skip - e.queue.length }
  else
    let n := e.pos + 1 - e.buf.length
    { e with buf := e.buf ++ e.queue.take n, queue := e.queue.drop n }

/-- The command that issues next, where it has arrived. -/
def Engine.head (e : Engine) : Option QCmd :=
  let e := e.norm
  if e.frames.isEmpty then (if e.skip = 0 then e.queue.head? else none) else e.buf[e.pos]?

/-- Is the queue full (04 R115)? What a skipped body leaves in it takes no place. -/
def Engine.full (e : Engine) : Bool := decide (64 ≤ e.norm.queue.length)

/-- Loop indices, outermost first (04 R126). -/
def Engine.indices (e : Engine) : List Nat := e.frames.reverse.map (·.index)

/-- Settle the place after a step inside a body. Where the outermost body ends, what it skipped at its end and had not captured yet is still to be dropped from the
queue. -/
def Engine.settle (e : Engine) (p : Nat) : Engine :=
  let r := wrapFrames e.frames p
  if r.1.isEmpty then { e with frames := [], buf := [], pos := 0, skip := p - e.buf.length }
  else { e with frames := r.1, pos := r.2 }

/-- Take the next command out of the stream. -/
def Engine.take (e : Engine) : Engine :=
  let e := e.norm
  if e.frames.isEmpty then { e with queue := e.queue.drop 1 } else e.settle (e.pos + 1)

/-- Enter a LOOP with body length `b` and latched count `c` (04 R127). -/
def Engine.enter (e : Engine) (b c : Nat) : Engine :=
  let e := e.norm
  if e.frames.isEmpty then
    let e := { e with queue := e.queue.drop 1, buf := [], pos := 0 }
    if c = 0 ∨ b = 0 then { e with skip := b } else { e with frames := [⟨0, b, c, 0⟩] }
  else if c = 0 ∨ b = 0 then e.settle (e.pos + 1 + b)
  else { e with frames := ⟨e.pos + 1, b, c, 0⟩ :: e.frames, pos := e.pos + 1 }

def Tile.setEngine (t : Tile) (i : EngId) (e : Engine) : Tile := { t with eng := SMap.set {} t.eng i.val e }

/-! ## Descriptors of a queued command (06 R521) -/

/-- Is the operation of count or length 0: it checks no address and reads no descriptor (00 R10)? -/
def opNoCount : EngOp → Bool
  | .glocal n _ _ _ _ _ => n == 0
  | .gremote n _ _ _ _ _ _ => n == 0
  | .scatter _ n _ _ _ _ _ _ => n == 0
  | .dout g _ _ _ _ _ _ => g == 0
  | .din g _ _ _ _ => g == 0
  | _ => false

/-- The descriptor grain to read next, given those read; none when all have arrived. -/
def nextDesc (op : EngOp) (got : List Piece) : Option DescAt :=
  let after (d : DescAt) (n : Nat) : DescAt :=
    match d with
    | .scratch a => .scratch (a + n)
    | .die a => .die (a + n)
  let table (d : DescAt) (got : List Piece) : Option DescAt :=
    match got with
    | [] => some d
    | [x] => if descDist x.bytes && !x.poison then some (after d 64) else none
    | _ => none
  if opNoCount op then none
  else match op with
  | .glocal _ _ _ d _ _ => table d got
  | .gremote _ _ _ d _ _ _ => table d got
  | .scatter _ _ _ _ d _ _ _ => table d got
  | .dout _ _ (.window d) _ _ _ _ =>
    (match got with
    | [] => some d
    | x :: r => if x.poison then none else table (.die (fieldAt x.bytes 0 8)) r)
  | .din _ _ (.window d) _ _ =>
    (match got with
    | [] => some d
    | x :: r => if x.poison then none else table (.die (fieldAt x.bytes 0 8)) r)
  | _ => none

/-- Is a queued command whole: all its descriptors read? -/
def QCmd.ready (q : QCmd) : Bool := q.bad || (nextDesc q.cmd.op q.got).isNone

/-! ## Spans (04 R115, R120) -/

/-- Index grains of `n` indices. -/
def indexGrains (n : Nat) : Nat := cdiv n 16

/-- Grains of a TLOAD, by element width. -/
def tloadGrains (fmt : Nat) : Nat := 8 * elemBits fmt

/-- The minimum span of an operation. -/
def minSpan (op : EngOp) : Nat :=
  max 1 (match op with
    | .tmul mov _ rows _ _ _ _ _ _ _ _ _ =>
      if elemBits mov.val = 4 then cdiv rows 2 else if elemBits mov.val = 16 then 4 * rows else rows
    | .tstore rows _ _ _ _ _ _ _ _ _ _ => rows
    | .glocal n _ _ _ _ _ => cdiv n 4
    | .gremote n _ _ _ _ _ _ => indexGrains n
    | .scatter _ n _ _ _ _ _ _ => indexGrains n
    | .dlocal g _ _ _ => cdiv g 4
    | .dout g _ _ _ _ _ _ => cdiv g 4
    | _ => 1)

/-! ## What is due in the present beat -/

/-- The engine's command due in this beat, arrived or not. -/
def Tile.dueNow (t : Tile) (e : EngId) : Bool :=
  t.kern.inKernel && t.kern.opened && !t.kern.stopped && (t.engine e).engaged && !(t.engine e).ended
    && (t.engine e).next == t.sched.kbeat

/-- The command due in this beat where it is in its queue with its descriptors. -/
def Tile.dueCmd (t : Tile) (e : EngId) : Option QCmd :=
  if t.dueNow e then (t.engine e).head.filter QCmd.ready else none

/-- Is a command's tally condition met (04 R117)? -/
def Tile.condMet (t : Tile) (c : EngCmd) : Bool :=
  match c.cond with
  | none => true
  | some (n, v) => tallyReached (SMap.get 0 t.sched.tally n.val) v.toNat

/-- Grains that the outbound buffer must take in this beat: scheduled reads, and the first of a DOUT that is due, as far as its window goes. -/
def Tile.outNeed (t : Tile) : Nat :=
  (t.reads.filter fun r => r.part == .out && r.beat == t.sched.kbeat).length +
    (match t.dueCmd 3 with
     | some q => (match q.cmd.op with | .dout g _ _ _ _ _ _ => min (q.grains.getD g) (min g 4) | _ => 0)
     | none => 0)

/-- The lowest-numbered hold cause present in this beat, 0 for none (04 R116): a beat is held or not from its first access on. -/
def Tile.holdCauseNow (t : Tile) : Nat :=
  if t.kern.heldAs != 0 then t.kern.heldAs
  else if !t.kern.opened && !t.kern.stopped then 1
  else if [0, 1, 2, 3].any fun e => t.dueNow e && (t.dueCmd e).isNone then 1
  else
    let c :=
      if [0, 1, 2, 3].any fun e => (match t.dueCmd e with | some q => !q.bad && !t.condMet q.cmd | none => false) then 2
      else if decide (0 < t.outNeed) && decide (64 < t.outUsed + t.outNeed) then 3
      else if t.kern.checkDue then 4
      else 0
    -- a beat that holds the opening command up is one in which it has not issued: cause 1 is present too
    if c != 0 && t.kern.opening && !t.kern.stopped then 1 else c

/-- May the remote port use a bank now: one access a beat, inside an unheld beat of a kernel only the rotating slot, and no second write of a bank that a landing
has written (03 R86, R92)? -/
def Tile.slotFree (t : Tile) (bank : Nat) (wr : Bool) : Bool :=
  t.remoteUse.isNone && (!t.kern.inKernel || t.holdCauseNow != 0 || bank == t.sched.kbeat % 16) && !(wr && t.bankUse.any fun b => b % 16 == bank)

/-- The beat in progress of a kernel is taken as held, if it is (04 R116). -/
def Tile.fixBeat (t : Tile) : Tile := if t.kern.inKernel then { t with kern := { t.kern with heldAs := t.holdCauseNow } } else t

/-- The remote port uses a bank. -/
def Tile.usePort (t : Tile) (bank : Nat) : Tile := { t.fixBeat with remoteUse := some bank }

/-- The fault with which a due command ends the kernel, 0 for none (04 R115, R128, 15 R482). -/
def Tile.cmdFault (t : Tile) (e : EngId) (q : QCmd) : Nat :=
  let en := (t.engine e).norm
  if q.bad then 1
  else
    match q.cmd.op with
    | .loop _ b =>
      if en.frames.length = 4 then 3
      else if 64 < b then 4
      else if (match en.frames with | [] => false | f :: _ => decide (f.start + f.len < en.pos + 1 + b)) then 4
      else if en.shortSpan then 5 else 0
    | .tload _ _ _ _ _ => if en.shortSpan || decide (t.sched.kbeat < t.tloadOk) then 5 else 0
    | _ => if en.shortSpan then 5 else 0

/-- The command that engine `e` issues in this beat: due, sound, and nothing holds the tile (04 R116). -/
def Tile.issuable (t : Tile) (e : EngId) : Option QCmd :=
  match t.dueCmd e with
  | some q => if t.holdCauseNow = 0 && t.cmdFault e q == 0 then some q else none
  | none => none

/-- The engine after its command issues: its next beat is exactly `span` unheld beats on (04 R115). -/
def Tile.issued (t : Tile) (e : EngId) (q : QCmd) : Tile :=
  let en := t.engine e
  let en := match q.cmd.op with
    | .loop r b => en.enter b (SMap.get 0 en.counts r.val)
    | _ => en.take
  let span := max 1 q.cmd.span
  let t := t.setEngine e { en with next := t.sched.kbeat + span, shortSpan := decide (q.cmd.span < minSpan q.cmd.op) }
  { t with kern := { t.kern with issued := true, opening := t.kern.opening && q.cmd.opening.isNone } }

/-! ## Banks (03 R86, R90, R91, R93, R125) -/

def bankOf (grain : Nat) : Nat := grain % 16

/-- Grains touched by `n` bytes at `a` (03 R87). -/
def grainsAt (a n : Nat) : List Nat :=
  if n = 0 then [] else (List.range ((a + n - 1) / 64 + 1 - a / 64)).map (a / 64 + ·)

/-- Does the access of engine `e` to grain `g` lose its bank among `all`, with the remote port at `remote`? -/
def losesBank (remote : Option Nat) (all : List (Nat × Nat)) (e g : Nat) : Bool :=
  remote == some (bankOf g) ||
  all.any fun x => bankOf x.2 == bankOf g && (decide (x.1 < e) || (x.1 == e && decide (x.2 < g)))

/-! ## Scheduled writes of a beat -/

/-- Split a write's data over the grains it touches: grain, address, data. -/
def SWrite.parts (s : SWrite) : List (Nat × Nat × Piece) :=
  (spanCuts s.addr s.data.bytes.length).map fun p =>
    ((s.addr + p.1) / 64, s.addr + p.1, ⟨(s.data.bytes.drop p.1).take p.2, s.data.poison⟩)

/-- Perform the writes that land in this beat (03 R89, R90, R125; 06 R187). -/
def Work.landWrites (w : Work) (tile : Nat) (ws : List SWrite) : Work :=
  let parts := ws.flatMap fun s => s.parts.map fun p => (s.eng.val, p)
  let top := (parts.filter fun p => decide (topGrain < p.2.1)).map (fun p => (p.1, p.2.1))
  let within := parts.filter fun p => decide (p.2.1 ≤ topGrain)
  let all := (within.map fun p => (p.1, p.2.1)).eraseDups
  let lost := all.filter fun x => losesBank w.t.remoteUse all x.1 x.2
  let w := w.bump cClampHigh top.eraseDups.length
  let w := w.bump cWriteLost lost.length
  let w := if lost.isEmpty then w else { w with t := w.t.faultBit 3 }
  within.foldl (fun w p => if lost.contains (p.1, p.2.1) then w else w.writeBytes tile p.2.2.1 p.2.2.2) w

/-! ## Scheduled reads of a beat -/

/-- What a read past the top of the scratchpad is served: a copy of the last grain, which uses no bank and meets no error again (06 R187). -/
def Tile.topCopy (t : Tile) : Piece :=
  ⟨t.scratch.read (64 * topGrain) 64, (List.range 8).any fun i => let c := SMap.get 0 t.words (8 * topGrain + i); c == 1 || c == 3⟩

/-- The grains that a beat's reads deliver, by engine and grain. -/
abbrev Served := List ((Nat × Nat) × Piece)

/-- How often a losing read of a grain counts: once, but for each row of a GLOCAL that names it (06 R196). -/
def lostReads (rs : List SRead) (k : Nat × Nat) : Nat :=
  max 1 ((rs.filter fun r => r.part == .row && r.eng.val == k.1 && (grainsAt r.addr r.len).contains k.2).map fun r => (r.op, r.k)).eraseDups.length

/-- Read every distinct grain that the beat's reads name: losers are poisoned and counted (03 R91), a grain past the top is a copy of
the last one (06 R187). DESIGN CHOICE (log 114): a read that touches more grains than its engine's width has them all in its beat. -/
def Work.serveReads (w : Work) (tile : Nat) (rs : List SRead) : Served × Work :=
  let keys := (rs.flatMap fun r => (grainsAt r.addr r.len).map fun g => (r.eng.val, g)).eraseDups
  let all := keys.filter fun k => decide (k.2 ≤ topGrain)
  keys.foldl (fun (acc : Served × Work) k =>
    let w := acc.2
    if topGrain < k.2 then
      let p := w.t.topCopy
      let w := w.bump cClampHigh 1
      (acc.1 ++ [(k, p)], if p.poison then w.poisonIn 1 else w)
    else if losesBank w.t.remoteUse all k.1 k.2 then
      let w := w.bump cReadCollision (lostReads rs k)
      (acc.1 ++ [(k, ⟨noData 64, true⟩)], ({ w with t := w.t.faultBit 3 }).poisonIn 1)
    else
      let r := w.readGrain tile k.2
      (acc.1 ++ [(k, r.1)], if r.1.poison then r.2.poisonIn 1 else r.2)) ([], w)

/-- A span of a read from the grains served: its bytes, poisoned when a grain it touches is. -/
def Served.span (s : Served) (e a n : Nat) : Piece :=
  let gs := (grainsAt a n).map fun g => ((s.find? fun x => x.1 == (e, g)).map (·.2)).getD ⟨noData 64, true⟩
  ⟨((gs.flatMap (·.bytes)).drop (a % 64)).take n, gs.any (·.poison)⟩

/-! ## Operation records -/

def Work.modOp (w : Work) (id : Nat) (f : OpRec → OpRec) : Work :=
  { w with t := { w.t with ops := w.t.ops.map fun o => if o.id = id then f o else o } }

def Work.op? (w : Work) (id : Nat) : Option OpRec := w.t.ops.find? (·.id == id)

/-- Add bytes of a piece to an inbound grain. -/
def InGrain.fill (g : InGrain) (off : Nat) (d : Piece) : InGrain :=
  { g with data := ⟨putAt g.data.bytes off d.bytes, g.data.poison || d.poison⟩, missing := g.missing - 1 }

/-- Deliver the bytes of a fetched piece to the inbound grains that wait for it (06 R195: every place that named the row). -/
def Work.deliver (w : Work) (id : Nat) (targets : List (Nat × Nat)) (d : Piece) (unchecked : Bool) : Work :=
  w.modOp id fun o =>
    { o with grains := (List.range o.grains.length).map fun i =>
               (targets.filter (·.1 == i)).foldl (fun g x => g.fill x.2 d) (o.grains.getD i ⟨0, {}, 0, true⟩)
             unchecked := o.unchecked || unchecked }

/-- Is everything of an asynchronous operation done: reads, landings and acknowledgements (04 R117)? -/
def OpRec.finished (o : OpRec) : Bool :=
  o.left == 0 && o.acks == 0 && o.srcs.isEmpty && o.grains.all (·.landed)

/-! ## Faults and the kernel's end -/

/-- A kernel fault in a tile takes effect (04 R134): no engine issues again, the queues and loop buffers are emptied, the core is
halted and restarts after the kernel has ended, unless it has been halted for good (04 R136). -/
def Work.kernelFault (w : Work) (tile code : Nat) : Work :=
  if w.t.kern.stopped || !w.t.kern.inKernel then w
  else
    let t := w.t
    let coreStays := t.core.halted && !t.core.restart
    let t := { t with
      kern := { t.kern with stopped := true, fault := code, pend := 0 }
      sched := { t.sched with kfault := code }
      eng := (List.range 4).foldl (fun m i =>
        SMap.mod {} m i fun e => { e with queue := [], buf := [], frames := [], pos := 0, skip := 0 }) t.eng
      core := { t.core with halted := true, wfi := false, restart := !coreStays } }
    let w := { w with t := t.bump cKernelFaults 1 }
    if code = 9 then w else w.post { code := 0x30, source := tile, args := [t.kern.kernelId, tile + 256 * code] }

/-- May the kernel end in the tile (04 R119)? -/
def Tile.mayEnd (t : Tile) : Bool :=
  t.kern.inKernel && (t.kern.stopped || (t.kern.opened &&
      [0, 1, 2, 3].all fun e => !(t.engine e).engaged || (t.engine e).ended)) &&
    t.reads.isEmpty && t.writes.isEmpty && t.lands.isEmpty && t.ops.isEmpty && t.landed.isEmpty

/-- Drop the stream's unpopped words up to and including its last, and count them (04 R119): what is kept, dropped, and whether the last was among them. -/
def dropStream (launch : Nat) : List BWord → List BWord × Nat × Bool
  | [] => ([], 0, false)
  | x :: xs =>
    if x.launch = launch then
      if x.last then (xs, 1, true)
      else let r := dropStream launch xs; (r.1, r.2.1 + 1, r.2.2)
    else (x :: xs, 0, true)

end Sys2Proof.Machine
end

