-- ==== Sys2Proof/Machine/Engines.lean ====
section
/-!
DEFINITION. What each engine operation does at its issue, at its scheduled reads and at its landings (04 R117 to R125, R520;
05 R153 to R163; 06 R186 to R200). Everything is within one tile; accesses that leave it are asked for through `Work.reqs`.
-/

namespace Sys2Proof.Machine

/-- Ring size and position of this module, for distributed descriptors (12 R391, R392). -/
structure RingAt where
  n : Nat
  pos : Nat
  deriving DecidableEq, Repr

/-! ## Helpers of issue -/

/-- A tensor-engine address with its low 6 bits treated as zero (03 R85). -/
def Work.tensorAddr (w : Work) (a : Nat) : Nat × Work :=
  (a / 64 * 64, if a % 64 = 0 then w else w.bump cMisaligned 1)

/-- Record an operation that has issued. -/
def Work.newOp (w : Work) (o : OpRec) : Work :=
  { w with t := { w.t with ops := w.t.ops ++ [{ o with id := w.t.nextOp, at_ := w.t.ctl.beatCount }], nextOp := w.t.nextOp + 1 } }

/-- An engine's operation is empty: its completion carries the zero-length flag (00 R10, 06 R184). -/
def Work.zeroOp (w : Work) (e : EngId) : Work := { w with t := w.t.setEngine e { w.t.engine e with zeroLen := true } }

def Work.addReads (w : Work) (rs : List SRead) : Work := { w with t := { w.t with reads := w.t.reads ++ rs } }

def Work.addWrites (w : Work) (ws : List SWrite) : Work := { w with t := { w.t with writes := w.t.writes ++ ws } }

def Work.addLand (w : Work) (l : Land) : Work := { w with t := { w.t with lands := w.t.lands ++ [l] } }

def Work.tag (w : Work) (eng : EngId) (cmd space lo hi land : Nat) : Work :=
  { w with t := w.t.tagWrite eng cmd space lo hi land }

def Work.check (w : Work) (isNew : Bool) (eng : EngId) (cmd space lo hi : Nat) : Work :=
  { w with t := w.t.checkRead isNew eng cmd space lo hi }

def Work.saturate (w : Work) (cls n : Nat) : Work := { w with t := w.t.saturate cls n }

/-- Does a LOCAL descriptor's address lie past the top of the scratchpad (06 R187)? -/
def pastTop (isLocal : Bool) (f : FarAddr) : Bool := isLocal && decide (0x200000 ≤ f.addr)

/-- Where a far address lies: a LOCAL descriptor's addresses are in the tile's own scratchpad (06 R182), or, of a shard that another module holds, in the scratchpad of
the same tile there (06 R205); a read past its top is served by the last grain (06 R187). -/
def farIn (tile : Nat) (isLocal : Bool) (f : FarAddr) : FarAddr :=
  if isLocal then ⟨f.module, scratchBase tile + (if 0x200000 ≤ f.addr then 0x1FFFC0 + f.addr % 64 else f.addr)⟩ else f

/-- The line of a grain in the read cache (03 R95): key and line. -/
def Tile.cacheFind (t : Tile) (grain : Nat) : Option (Nat × CLine) :=
  (List.range 8).findSome? fun way =>
    let k := 8 * (grain % 256) + way
    match SMap.get none t.cache k with
    | some l => if l.grain = grain then some (k, l) else none
    | none => none

/-- Invalidate one line (03 R97). -/
def Tile.cacheDrop (t : Tile) (grain : Nat) : Tile :=
  match t.cacheFind grain with
  | some (k, _) => { t with cache := SMap.set none t.cache k none }
  | none => t

/-- A line is used: its set's replacement history follows (03 R95, log 79). -/
def Tile.touchLine (t : Tile) (k : Nat) : Tile := { t with plru := SMap.mod 0 t.plru (k / 8) fun h => 8 * h + k % 8 }

/-- Is an address stack or board-tier memory, which the cache holds (03 R95)? -/
def cacheableAt (a : Nat) : Bool := match placeOf a with | .tier _ _ => true | _ => false

/-- Look the cache up (03 R96, R98, 15 R478): data and unchecked flag of a hit; an uncorrectable line is invalidated and missed. -/
def Work.cacheLook (w : Work) (tile a n : Nat) : Option (Piece × Bool) × Work :=
  match w.t.cacheFind (a / 64) with
  | some (k, l) =>
    if l.err = 3 then
      (none, ({ (w.bump cCacheUncorr 1).bump cCacheMiss 1 with
        t := { (((w.t.bump cCacheUncorr 1).bump cCacheMiss 1).faultBit 2) with cache := SMap.set none w.t.cache k none } }).post
          (sramUncorr tile 2 k))
    else
      let w := if l.err = 2 then w.bump cCacheCorr 1 else w
      (some (⟨(l.data.drop (a % 64)).take n, false⟩, l.unchecked), { (w.bump cCacheHit 1) with t := (w.t.bump cCacheHit 1).touchLine k })
  | none => (none, w.bump cCacheMiss 1)

/-- The issue beat of an operation, by BEAT_COUNT. -/
def Work.stampOf (w : Work) (id : Nat) : Nat := ((w.op? id).map (·.at_)).getD w.t.ctl.beatCount

/-- A piece read past the top of the scratchpad counts (06 R187), by grain: the pieces of one grain once. -/
def Work.pastCount (w : Work) (isLocal : Bool) (fs : List FarAddr) : Work :=
  w.bump cClampHigh ((fs.filter (pastTop isLocal)).map fun f => f.addr / 64).eraseDups.length

/-- Ask for a piece of an inbound operation, or take it from the read cache. -/
def Work.fetch (w : Work) (tile : TileId) (eng : EngId) (id : Nat) (cacheable : Bool) (acq : Option Nat) (f : FarAddr) (n : Nat)
    (targets : List (Nat × Nat)) : Work :=
  let q : Txn := { id := 0, agent := .engine tile eng, kind := .read, dest := f, len := n, acq := acq,
                   sentAt := w.stampOf id, gen := w.t.cacheGen, purpose := .inbound tile id targets }
  -- a line never stands in for a write of the engine's own that is still to enter the mesh (09 R290)
  if cacheable && f.module.isNone && cacheableAt f.addr && !w.unsent.contains (eng.val, f.addr / 64) then
    match w.cacheLook tile.val f.addr n with
    | (some (d, u), w) => w.deliver id targets d u
    | (none, w) => w.ask { q with fill := true }
  else w.ask q

/-- The scope code of an ordering attribute. -/
def ordAcq (o : Order) : Option Nat := match o with | .acquire s => some s.val | _ => none
def ordRel (o : Order) : Option Nat := match o with | .release s => some s.val | _ => none

/-- Send bytes of an outbound operation to their home, invalidating the tile's own line (03 R97), and await its acknowledgement; `slot` is the grain of the
outbound buffer that they leave. -/
def Work.send (w : Work) (tile : TileId) (eng : EngId) (id : Nat) (kind : TxKind) (ord : Order) (rtally : Option (Fin 8))
    (f : FarAddr) (d : Piece) (slot : Option Nat := none) : Work :=
  let at_ := w.stampOf id
  let w := w.modOp id fun o => { o with acks := o.acks + 1 }
  w.ask { id := 0, agent := .engine tile eng, kind := kind, dest := f, len := d.bytes.length, data := d, rtally := rtally
          stage := if (ordRel ord).isSome then .held else .queued, rel := ordRel ord, sentAt := at_, slot := slot
          purpose := .outbound tile id }

/-! ## Tensor engine -/

/-- TLOAD issues: grains at i + j, scales at i and i + 1, the shadow buffer complete at i + G + 1 (04 R120, 05 R157). -/
def issueTload (q : QCmd) (idx : List Nat) (fmt : Nat) (src scales : Addr) (newSrc newScales : Bool) (w : Work) : Work :=
  let k := w.t.sched.kbeat
  let a := w.tensorAddr (locOf src idx)
  let b := if isMx fmt then a.2.tensorAddr (locOf scales idx) else (0, a.2)
  let g := tloadGrains fmt
  let id := w.t.nextOp
  let w := b.2.newOp { id := 0, eng := 0, cmd := q.idx, issue := k, op := q.cmd.op, bases := [a.1, b.1], left := g + (if isMx fmt then 2 else 0) }
  let w := w.addReads ((List.range g).map fun j =>
    ⟨k + j, 0, q.idx, id, .tload, j, a.1 + 64 * j, 64, 0, newSrc⟩)
  let w := if isMx fmt then w.addReads ((List.range 2).map fun j =>
    ⟨k + j, 0, q.idx, id, .tloadScale, j, b.1 + 64 * j, 64, 0, newScales⟩) else w
  let w := (w.addLand ⟨k + g + 1, k, .shadow id⟩).tag 0 q.idx 3 1 2 (k + g + 1)
  { w with t := { w.t with tloadOk := k + g } }

/-- TSWAP issues: the buffers are exchanged at i + 1. -/
def issueTswap (q : QCmd) (w : Work) : Work :=
  let k := w.t.sched.kbeat
  (w.addLand ⟨k + 1, k, .swap⟩).tag 0 q.idx 3 0 2 (k + 1)

/-- TMUL issues: row m is read at i + e(m), its scale grain with every 32nd row (04 R120, 05 R157). -/
def issueTmul (q : QCmd) (idx : List Nat) (mov rows : Nat) (src scales : Addr) (newSrc newScales : Bool) (w : Work) : Work :=
  let k := w.t.sched.kbeat
  let a := w.tensorAddr (locOf src idx)
  let b := if isMx mov then a.2.tensorAddr (locOf scales idx) else (0, a.2)
  let id := w.t.nextOp
  let rows := min rows 64
  if rows = 0 then w.zeroOp 0
  else
    let sc := if isMx mov then cdiv rows 32 else 0
    let w := b.2.newOp { id := 0, eng := 0, cmd := q.idx, issue := k, op := q.cmd.op, bases := [a.1, b.1], left := rows + sc }
    let w := w.addReads ((List.range sc).map fun j =>
      ⟨k + rowBeat mov (32 * j), 0, q.idx, id, .tmulScale, j, b.1 + 64 * j, 64, 0, newScales⟩)
    let w := w.addReads ((List.range rows).map fun m =>
      ⟨k + rowBeat mov m, 0, q.idx, id, .tmul, m, a.1 + rowBytes mov * m, rowBytes mov, 0, newSrc⟩)
    (List.range rows).foldl (fun w m => w.tag 0 q.idx 2 m (m + 1) (k + 65 + rowBeat mov m)) w

/-- TZERO issues: all rows zero at i + 1. -/
def issueTzero (q : QCmd) (w : Work) : Work :=
  let k := w.t.sched.kbeat
  (w.addLand ⟨k + 1, k, .accZero⟩).tag 0 q.idx 2 0 64 (k + 1)

/-- TSTORE issues: accumulator row j is read at i + j and lands in the scratchpad at i + 4 + j. -/
def issueTstore (q : QCmd) (idx : List Nat) (rows : Nat) (dst : Addr) (fmt : Nat) (newAcc : Bool) (w : Work) : Work :=
  let k := w.t.sched.kbeat
  let a := w.tensorAddr (locOf dst idx)
  let id := w.t.nextOp
  let rows := min rows 64
  if rows = 0 then w.zeroOp 0
  else
    let w := a.2.newOp { id := 0, eng := 0, cmd := q.idx, issue := k, op := q.cmd.op, bases := [a.1], left := rows }
    let w := w.addReads ((List.range rows).map fun j => ⟨k + j, 0, q.idx, id, .acc, j, 0, 0, 0, newAcc⟩)
    (List.range rows).foldl (fun w j =>
      w.tag 0 q.idx 0 (a.1 + j * rowBytes fmt) (a.1 + (j + 1) * rowBytes fmt) (k + 4 + j)) w

/-! ## Vector engine -/

/-- VLOAD issues: its grains are read at i and the register lands at i + 3. -/
def issueVload (q : QCmd) (idx : List Nat) (rd off len : Nat) (src : Addr) (newSrc : Bool) (w : Work) : Work :=
  let k := w.t.sched.kbeat
  let len := min len (512 - off)
  if len = 0 then w.zeroOp 1
  else
    let id := w.t.nextOp
    let w := w.newOp { id := 0, eng := 1, cmd := q.idx, issue := k, op := q.cmd.op, left := 1 }
    let w := w.addReads [⟨k, 1, q.idx, id, .vload, 0, locOf src idx, len, off, newSrc⟩]
    w.tag 1 q.idx 1 rd (rd + 1) (k + 3)

/-- VSTORE issues: the register is read at i and its grains land at i + 2; each keeps its flag. -/
def issueVstore (q : QCmd) (idx : List Nat) (rs off len : Nat) (dst : Addr) (newReg : Bool) (w : Work) : Work :=
  let k := w.t.sched.kbeat
  let len := min len (512 - off)
  let a := locOf dst idx
  if len = 0 then w.zeroOp 1
  else
    let w := w.check newReg 1 q.idx 1 rs (rs + 1)
    let b := w.t.vbytes rs
    let w := w.addWrites ((spanCuts off len).map fun p =>
      ⟨k + 2, k, 1, a + p.1, ⟨(b.drop (off + p.1)).take p.2, w.t.vpoison rs ((off + p.1) / 64)⟩⟩)
    w.tag 1 q.idx 0 a (a + len) (k + 2)

/-- Latency of a lane operation (04 R120). -/
def vecLatency (op : VOp) : Nat :=
  match op with
  | .redSum | .redMax => 9
  | .exp | .rcp | .rsqrt | .silu => 12
  | _ => 4

/-- A lane operation issues: registers are read at i, the result lands after its latency. -/
def issueVec (q : QCmd) (op : VOp) (half : Bool) (rd ra rb rc : Nat) (newA newB newC : Bool) (w : Work) : Work :=
  let k := w.t.sched.kbeat
  let w := w.check newA 1 q.idx 1 ra (ra + 1)
  let w := if 2 ≤ vecArity op then w.check newB 1 q.idx 1 rb (rb + 1) else w
  let w := if 3 ≤ vecArity op then w.check newC 1 q.idx 1 rc (rc + 1) else w
  let t := w.t
  let flags (r : Nat) := (List.range 8).map fun g => t.vpoison r g
  let r := vecResult op half (t.vbytes ra) (t.vbytes rb) (t.vbytes rc) (flags ra) (flags rb) (flags rc)
  let w := w.saturate 4 r.2.2
  let land := k + vecLatency op
  (w.addLand ⟨land, k, .vreg rd 0 r.1 r.2.1⟩).tag 1 q.idx 1 rd (rd + 1) land

/-- A fold leaves for the scale table (05 R168); with no finite input that is not poisoned there is no magnitude to send (log 91). -/
def Work.fold (w : Work) (slot : Option (Fin 1024)) (v : Option Nat) : Work :=
  match slot, v with
  | some n, some v => { w with folds := w.folds ++ [(n.val, v)] }
  | _, _ => w

/-- VCVT issues: the register lands at i + 5. -/
def issueVcvt (q : QCmd) (rd ra : Nat) (src dst : Nat) (srcExp srcZp dstExp : BitVec 8) (rz : Bool) (cls : Nat)
    (slot : Option (Fin 1024)) (newA : Bool) (w : Work) : Work :=
  let k := w.t.sched.kbeat
  let w := w.check newA 1 q.idx 1 ra (ra + 1)
  let r := cvtResult src dst srcExp srcZp dstExp rz slot.isSome (w.t.vbytes ra) ((List.range 8).map fun g => w.t.vpoison ra g)
  let w := ((w.saturate cls r.2.2.sat).saturate 4 r.2.2.acc).fold slot r.2.2.fold
  (w.addLand ⟨k + 5, k, .vreg rd 0 r.1 r.2.1⟩).tag 1 q.idx 1 rd (rd + 1) (k + 5)

/-- VSCALE issues: the register lands at i + 6; clips add to the MX-clip total (05 R163). -/
def issueVscale (q : QCmd) (rd ra : Nat) (half : Bool) (fmt : Nat) (rz newA : Bool) (w : Work) : Work :=
  let k := w.t.sched.kbeat
  let w := w.check newA 1 q.idx 1 ra (ra + 1)
  let r := scaleResult half fmt rz (w.t.vbytes ra) ((List.range 8).map fun g => w.t.vpoison ra g)
  let w := { w with t := { w.t with kern := { w.t.kern with mxClip := w.t.kern.mxClip + r.2.2 } } }
  (w.addLand ⟨k + 6, k, .vreg rd 0 r.1 r.2.1⟩).tag 1 q.idx 1 rd (rd + 1) (k + 6)

/-! ## Gather table of a command -/

/-- What a gather or scatter knows of its table. -/
inductive Table where
  /-- The descriptor grain, or its extension, was read poisoned (15 R477). -/
  | poisoned
  /-- Malformed: the operation is empty and DESC_BAD counts (06 R184). -/
  | bad
  /-- A size of zero (00 R10). -/
  | nothing
  | ok (d : TDesc)
  deriving DecidableEq, Repr

/-- Read a table from the command's descriptor grains. -/
def tableOf (n : Nat) (got : List Piece) : Table :=
  if got.any (·.poison) then .poisoned
  else
    let d := TDesc.parse ((got.getD 0 {}).bytes) ((got.getD 1 {}).bytes)
    if d.bad n then .bad
    else if d.isEmpty then .nothing
    else .ok d

/-- Grains of a row of a gather table (06 R193). -/
def rowGrains (d : TDesc) : Nat := (Window.row d 0).grains

/-- Signed index `i` of an index grain. -/
def indexOf (b : List Byte) (i : Nat) : Int := sext 32 (fieldAt b (4 * i) 4)

/-- Count the clamp of one index (06 R194). -/
def Work.clampCount (w : Work) (l : List VecAt) : Work :=
  let c := clampCounts l
  (w.bump cClampLow c.1).bump cClampHigh c.2

/-- D1 size against which an index is clamped: global where distributed. -/
def d1Size (d : TDesc) : Nat := if d.dist then (d.dim 1).size else d.size 1

/-- Count the clamps of a list of row indices, once each: the global one, and the local one of a shard that this module holds (06 R194, R203, R204). -/
def Work.clampRows (w : Work) (ring : RingAt) (d : TDesc) (write : Bool) (is : List Int) : Work :=
  w.clampCount (is.map fun i => d.vecAt ring.n ring.pos write [0, i, 0, 0, 0])

/-- Index grain reads of a gather or scatter: grain k at i + k (04 R120, R520). -/
def indexReads (q : QCmd) (id k a n : Nat) (isNew : Bool) : List SRead :=
  (List.range (indexGrains n)).map fun j => ⟨k + j, 2, q.idx, id, .index, j, a + 64 * j, 64, 0, isNew⟩

/-- A poisoned grain landing in beat `beat` at `a`. -/
def poisonWrite (beat issue : Nat) (eng : EngId) (a : Nat) : SWrite := ⟨beat, issue, eng, a, ⟨noData 64, true⟩⟩

/-- A descriptor that is checked counts its low stride bits once in MISALIGNED, whatever else the check finds (06 R184). -/
def Work.strideCount (w : Work) (d : TDesc) : Work := if d.misaligned then w.bump cMisaligned 1 else w

/-- The same of a table's descriptor grains; a poisoned one is not checked (15 R477). -/
def Work.tableCount (w : Work) (got : List Piece) : Work :=
  if got.any (·.poison) then w else w.strideCount (TDesc.parse ((got.getD 0 {}).bytes) ((got.getD 1 {}).bytes))

/-- The same of a window transfer's, with the low part of START_C (06 R189). -/
def Work.windowCount (w : Work) (got : List Piece) : Work :=
  if got.any (·.poison) then w
  else
    let d := TDesc.parse ((got.getD 1 {}).bytes) ((got.getD 2 {}).bytes)
    let w := w.strideCount d
    if (XDesc.parse ((got.getD 0 {}).bytes)).misaligned d then w.bump cMisaligned 1 else w

/-- GLOCAL issues (06 R193, R196). -/
def issueGlocal (ring : RingAt) (q : QCmd) (idx : List Nat) (n : Nat) (ia dst : Addr) (newIdx : Bool) (w : Work) : Work :=
  let k := w.t.sched.kbeat
  let a := locOf dst idx
  if n = 0 then w.zeroOp 2
  else
    let w := w.tableCount q.got
    match tableOf ring.n q.got with
    | .poisoned =>
      let w := (w.bump cDescBad 1).poisonIn 1
      let w := w.addWrites ((List.range n).map fun j => poisonWrite (k + 6 + j / 4) k 2 (a + 64 * j))
      (List.range n).foldl (fun w j => w.tag 2 q.idx 0 (a + 64 * j) (a + 64 * j + 64) (k + 6 + j / 4)) w
    | .bad => (w.bump cDescBad 1).zeroOp 2
    | .nothing => w.zeroOp 2
    | .ok d =>
      if d.dims = 0 || !d.isLocal || rowGrains d != 1 then (w.bump cDescBad 1).zeroOp 2
      else
        let id := w.t.nextOp
        let w := w.newOp { id := 0, eng := 2, cmd := q.idx, issue := k, op := q.cmd.op, bases := [a], descs := q.got, left := indexGrains n }
        let w := w.addReads (indexReads q id k (locOf ia idx / 64 * 64) n newIdx)
        (List.range n).foldl (fun w j => w.tag 2 q.idx 0 (a + 64 * j) (a + 64 * j + 64) (k + 6 + j / 4)) w

/-- An asynchronous operation that makes no access: its tally counts in the next beat. -/
def Work.noAccess (w : Work) (q : QCmd) (eng : EngId) (tally : Fin 8) (ord : Order) : Work :=
  w.newOp { id := 0, eng := eng, cmd := q.idx, issue := w.t.sched.kbeat, op := q.cmd.op, tally := some tally, ord := ord }

/-- An empty asynchronous operation (00 R10, 06 R184). -/
def Work.emptyAsync (w : Work) (q : QCmd) (eng : EngId) (tally : Fin 8) (ord : Order) : Work :=
  (w.zeroOp eng).newOp { id := 0, eng := eng, cmd := q.idx, issue := w.t.sched.kbeat, op := q.cmd.op, tally := some tally, ord := ord, zeroLen := true }

/-- GREMOTE issues (06 R195): its index grains are scheduled reads, its rows come asynchronously. -/
def issueGremote (ring : RingAt) (q : QCmd) (idx : List Nat) (n : Nat) (ia dst : Addr) (tally : Fin 8) (ord : Order) (newIdx : Bool)
    (w : Work) : Work :=
  let k := w.t.sched.kbeat
  if n = 0 then w.emptyAsync q 2 tally ord
  else
    let w := w.tableCount q.got
    match tableOf ring.n q.got with
    | .poisoned => ((w.bump cDescBad 1).poisonIn 1).noAccess q 2 tally ord
    | .bad => (w.bump cDescBad 1).emptyAsync q 2 tally ord
    | .nothing => w.emptyAsync q 2 tally ord
    | .ok d =>
      if d.dims = 0 || rowGrains d = 0 || decide (64 < rowGrains d) then (w.bump cDescBad 1).emptyAsync q 2 tally ord
      else
        let id := w.t.nextOp
        let w := w.newOp { id := 0, eng := 2, cmd := q.idx, issue := k, op := q.cmd.op, bases := [locOf dst idx], descs := q.got,
                           left := indexGrains n, tally := some tally, ord := ord }
        w.addReads (indexReads q id k (locOf ia idx / 64 * 64) n newIdx)

/-- SCATTER and SCATTER_ADD issue (06 R198 to R200). -/
def issueScatter (ring : RingAt) (q : QCmd) (idx : List Nat) (comb : Option Comb) (n : Nat) (ia src : Addr) (tally : Fin 8) (ord : Order)
    (newIdx : Bool) (w : Work) : Work :=
  let k := w.t.sched.kbeat
  if n = 0 then w.emptyAsync q 2 tally ord
  else
    let w := w.tableCount q.got
    match tableOf ring.n q.got with
    | .poisoned => ((w.bump cDescBad 1).poisonIn 1).noAccess q 2 tally ord
    | .bad => (w.bump cDescBad 1).emptyAsync q 2 tally ord
    | .nothing => w.emptyAsync q 2 tally ord
    | .ok d =>
      if d.dims = 0 || (comb.isSome && d.fmt != 0) then (w.bump cDescBad 1).emptyAsync q 2 tally ord
      else
        let id := w.t.nextOp
        let w := w.newOp { id := 0, eng := 2, cmd := q.idx, issue := k, op := q.cmd.op, bases := [locOf src idx], descs := q.got,
                           left := indexGrains n, tally := some tally, ord := ord }
        w.addReads (indexReads q id k (locOf ia idx / 64 * 64) n newIdx)

/-! ## DMA engine -/

/-- DLOCAL issues: grain j is read at i + j div 4 and lands at i + 3 + j div 4. -/
def issueDlocal (q : QCmd) (idx : List Nat) (g : Nat) (src dst : Addr) (newSrc : Bool) (w : Work) : Work :=
  let k := w.t.sched.kbeat
  if g = 0 then w.zeroOp 3
  else
    let id := w.t.nextOp
    let b := locOf dst idx
    let w := w.newOp { id := 0, eng := 3, cmd := q.idx, issue := k, op := q.cmd.op, bases := [b], left := g }
    let w := w.addReads ((List.range g).map fun j => ⟨k + j / 4, 3, q.idx, id, .move, j, locOf src idx + 64 * j, 64, 0, newSrc⟩)
    (List.range g).foldl (fun w j => w.tag 3 q.idx 0 (b + 64 * j) (b + 64 * j + 64) (k + 3 + j / 4)) w

/-- A window transfer's descriptors (06 R184, R189, 15 R477). -/
inductive WinOf where
  | poisoned
  | bad
  | nothing
  | ok (w : Window)
  deriving DecidableEq, Repr

def windowOf (n : Nat) (got : List Piece) : WinOf :=
  if got.any (·.poison) then .poisoned
  else
    let x := XDesc.parse ((got.getD 0 {}).bytes)
    let d := TDesc.parse ((got.getD 1 {}).bytes) ((got.getD 2 {}).bytes)
    if d.bad n then .bad
    else
      let w := Window.of x d
      if d.isEmpty || w.vectors == 0 then .nothing else .ok w

/-- Counts at the start of a window transfer of G grains: clamps, and a size that does not match (06 R186, R191). -/
def Work.windowCounts (w : Work) (ring : RingAt) (win : Window) (g : Nat) (write : Bool) : Work :=
  let w := w.clampCount ((win.refs ring.n ring.pos g write).map (·.2))
  if win.grains = g then w else w.bump cDescBad 1

/-- DOUT issues: grain j is read at i + j div 4 into the outbound buffer. Of a window smaller than G, nothing is sent for the rest (06 R191). -/
def issueDout (ring : RingAt) (q : QCmd) (idx : List Nat) (g : Nat) (src : Addr) (far : Far) (tally : Fin 8) (ord : Order) (newSrc : Bool)
    (w : Work) : Work :=
  let k := w.t.sched.kbeat
  if g = 0 then w.emptyAsync q 3 tally ord
  else
    let reads (id n : Nat) := (List.range n).map fun j =>
      (⟨k + j / 4, 3, q.idx, id, .out, j, locOf src idx + 64 * j, 64, 0, newSrc⟩ : SRead)
    match far with
    | .plain a =>
      let id := w.t.nextOp
      (w.newOp { id := 0, eng := 3, cmd := q.idx, issue := k, op := q.cmd.op, bases := [dieOf a idx], left := g, tally := some tally, ord := ord }).addReads
        (reads id g)
    | .window _ =>
      let w := w.windowCount q.got
      match windowOf ring.n q.got with
      | .poisoned => ((w.bump cDescBad 1).poisonIn 1).noAccess q 3 tally ord
      | .bad => (w.bump cDescBad 1).emptyAsync q 3 tally ord
      | .nothing => w.emptyAsync q 3 tally ord
      | .ok win =>
        let w := w.windowCounts ring win g true
        let n := min g win.grains
        let id := w.t.nextOp
        (w.newOp { id := 0, eng := 3, cmd := q.idx, issue := k, op := q.cmd.op, descs := q.got, left := n, tally := some tally, ord := ord }).addReads
          (reads id n)

/-- An inbound grain not yet filled. -/
def inGrain (a missing : Nat) (poison : Bool) : InGrain := ⟨a, ⟨if poison then noData 64 else zeros 64, poison⟩, missing, false⟩

/-- DIN issues: every piece is asked for, from the read cache where the descriptor says so (06 R189 to R191). -/
def issueDin (tile : TileId) (ring : RingAt) (q : QCmd) (idx : List Nat) (g : Nat) (dst : Addr) (far : Far) (tally : Fin 8) (ord : Order)
    (w : Work) : Work :=
  let k := w.t.sched.kbeat
  let a := locOf dst idx
  let id := w.t.nextOp
  let rec0 (gs : List InGrain) : OpRec :=
    { id := 0, eng := 3, cmd := q.idx, issue := k, op := q.cmd.op, tally := some tally, ord := ord, grains := gs }
  if g = 0 then w.emptyAsync q 3 tally ord
  else
    match far with
    | .plain s =>
      let f := dieOf s idx
      let cuts := (List.range g).flatMap fun j => (spanCuts (f + 64 * j) 64).map fun p => (j, p)
      let w := w.newOp (rec0 ((List.range g).map fun j => inGrain (a + 64 * j) (spanCuts (f + 64 * j) 64).length false))
      cuts.foldl (fun w c =>
        w.fetch tile 3 id false (ordAcq ord) ⟨none, (f + 64 * c.1 + c.2.1) % 2 ^ 64⟩ c.2.2 [(c.1, c.2.1)]) w
    | .window _ =>
      let w := w.windowCount q.got
      match windowOf ring.n q.got with
      | .poisoned =>
        ((w.bump cDescBad 1).poisonIn 1).newOp (rec0 ((List.range g).map fun j => inGrain (a + 64 * j) 0 true))
      | .bad => (w.bump cDescBad 1).emptyAsync q 3 tally ord
      | .nothing => w.emptyAsync q 3 tally ord
      | .ok win =>
        let w := w.windowCounts ring win g false
        let ps := win.pieces ring.n ring.pos g false
        let w := w.pastCount win.d.isLocal (ps.map fun p => p.at_.getD 0 ⟨none, 0⟩)
        let w := w.newOp (rec0 ((List.range g).map fun j => inGrain (a + 64 * j) (ps.countP fun p => p.off / 64 == j) false))
        ps.foldl (fun w p =>
          w.fetch tile 3 id win.d.cacheable (ordAcq ord) (farIn tile.val win.d.isLocal (p.at_.getD 0 ⟨none, 0⟩)) p.len
            [(p.off / 64, p.off % 64)]) w

/-! ## Scheduled reads delivered -/

/-- One read of an operation done; a scheduled operation is over with its last read, TLOAD with its landing. -/
def Work.readDone (w : Work) (id : Nat) : Work :=
  let w := w.modOp id fun o => { o with left := o.left - 1 }
  { w with t := { w.t with ops := w.t.ops.filter fun o =>
      !(o.id == id && o.left == 0 && o.tally.isNone && !(match o.op with | .tload .. => true | _ => false)) } }

/-- The pieces of a gather row at clamped D1 index `i` (06 R193). -/
def rowPieces (ring : RingAt) (d : TDesc) (i : Nat) (write : Bool) : List WPiece :=
  let win := Window.row d i
  win.pieces ring.n ring.pos win.grains write

/-- GLOCAL's index grain `j` has been read: its rows are scheduled, four to a beat; a row whose grains earlier rows of its beat have named is served by
their reads (06 R196). A poisoned grain's rows are poisoned (15 R477). -/
def glocalIndex (ring : RingAt) (o : OpRec) (n j : Nat) (newRow : Bool) (d : Piece) (w : Work) : Work :=
  let t := TDesc.parse ((o.descs.getD 0 {}).bytes) ((o.descs.getD 1 {}).bytes)
  let dst := o.bases.getD 0 0
  let rows := (List.range 16).filter fun i => decide (16 * j + i < n)
  if d.poison then
    w.addWrites (rows.map fun i => poisonWrite (o.issue + 6 + (16 * j + i) / 4) o.issue 2 (dst + 64 * (16 * j + i)))
  else
    let cl := rows.map fun i => clampIdx (indexOf d.bytes i) (d1Size t)
    let w := w.clampRows ring t false (rows.map (indexOf d.bytes))
    let gs := cl.map fun c => (rowPieces ring t c.1 false).map fun p => (p.at_.getD 0 ⟨none, 0⟩).addr / 64
    let same := rows.countP fun i =>
      let before := (List.range (i % 4)).flatMap fun b => gs.getD (i / 4 * 4 + b) []
      decide (i % 4 ≠ 0) && (gs.getD i []).all before.contains
    let w := w.bump cCoalesced same
    rows.foldl (fun w i =>
      let r := 16 * j + i
      let ps := rowPieces ring t (cl.getD i (0, false, false)).1 false
      let w := w.modOp o.id fun o => { o with left := o.left + ps.length }
      w.addReads (ps.map fun p =>
        ⟨o.issue + 5 + r / 4, 2, o.cmd, o.id, .row, r, (p.at_.getD 0 ⟨none, 0⟩).addr, p.len, p.off, newRow⟩)) w

/-- A piece of a GLOCAL row has been read: with the row's last piece the row is written, a whole grain, filled with zeros (06 R190), poisoned if any piece was
(06 R197). -/
def Work.glocalRow (w : Work) (o : OpRec) (r : SRead) (d : Piece) : Work :=
  let t := TDesc.parse ((o.descs.getD 0 {}).bytes) ((o.descs.getD 1 {}).bytes)
  let row := (o.bufs.filter (·.1 == r.k)).map (·.2) ++ [d]
  let bytes := row.flatMap (·.bytes)
  if bytes.length < (Window.row t 0).elemBytes then w.modOp o.id fun o => { o with bufs := o.bufs ++ [(r.k, d)] }
  else w.addWrites [⟨w.t.sched.kbeat + 1, o.issue, 2, o.bases.getD 0 0 + 64 * r.k, ⟨padTo 64 bytes, row.any (·.poison)⟩⟩]

/-- Fetch the rows of one GREMOTE window of at most 64 indices: each distinct row once, to every place that named it (06 R195). Indices come
with their row numbers; `none` is an index of a poisoned grain, whose row is poisoned. -/
def gremoteWindow (tile : TileId) (ring : RingAt) (o : OpRec) (ord : Order) (ixs : List (Nat × Option Int)) (w : Work) : Work :=
  let t := TDesc.parse ((o.descs.getD 0 {}).bytes) ((o.descs.getD 1 {}).bytes)
  let r := rowGrains t
  let dst := o.bases.getD 0 0
  let good := ixs.filterMap fun x => x.2.map fun i => (x.1, clampIdx i (d1Size t))
  let w := w.clampRows ring t false (ixs.filterMap (·.2))
  let distinct := (good.map (·.2.1)).eraseDups
  let w := w.bump cCoalesced (good.length - distinct.length)
  let base := ((w.op? o.id).map (·.grains.length)).getD 0
  -- the grains of the window's rows, in order of place
  let place (row : Nat) : Nat := (ixs.map (·.1)).idxOf row
  let missing (x : Nat × Option Int) (g : Nat) : Nat :=
    match x.2 with
    | none => 0
    | some i => (rowPieces ring t (clampIdx i (d1Size t)).1 false).countP (fun p => p.off / 64 == g)
  let more := ixs.flatMap fun x =>
    (List.range r).map fun g => inGrain (dst + (x.1 * r + g) * 64) (missing x g) x.2.isNone
  let w := w.modOp o.id fun o => { o with grains := o.grains ++ more }
  distinct.foldl (fun w i =>
    let w := w.pastCount t.isLocal ((rowPieces ring t i false).map fun p => p.at_.getD 0 ⟨none, 0⟩)
    (rowPieces ring t i false).foldl (fun w p =>
      w.fetch tile 2 o.id t.cacheable (ordAcq ord) (farIn tile.val t.isLocal (p.at_.getD 0 ⟨none, 0⟩)) p.len
        ((good.filter (·.2.1 == i)).map fun x => (base + place x.1 * r + p.off / 64, p.off % 64))) w) w

/-- Index grain `j` of a GREMOTE has been read: kept, and the window it completes is fetched. -/
def gremoteIndex (tile : TileId) (ring : RingAt) (o : OpRec) (ord : Order) (n j : Nat) (d : Piece) (w : Work) : Work :=
  let w := w.modOp o.id fun o => { o with bufs := o.bufs ++ [(j, d)] }
  let win := j / 4
  let gs := (List.range 4).filter fun g => decide (4 * win + g < indexGrains n)
  match w.op? o.id with
  | none => w
  | some o' =>
    if gs.all fun g => o'.bufs.any (·.1 == 4 * win + g) then
      let ixs := (List.range 64).filterMap fun i =>
        let r := 64 * win + i
        if r < n then
          let d := ((o'.bufs.find? (·.1 == r / 16)).map (·.2)).getD {}
          some (r, if d.poison then none else some (indexOf d.bytes (r % 16)))
        else none
      gremoteWindow tile ring o' ord ixs w
    else w

/-- Mask of the bytes of a packed row that are not padding (06 R178). -/
def rowMask (ring : RingAt) (d : TDesc) (i : Nat) : List Byte :=
  let win := Window.row d i
  win.padImage ring.n ring.pos win.grains (List.replicate (64 * win.grains) 0xFF#8)

/-- Index grain `j` of a scatter has been read: the source grains of its rows wait to be read (04 R520); of a poisoned grain none is sent (15 R477). -/
def scatterIndex (ring : RingAt) (tile : TileId) (o : OpRec) (n j : Nat) (d : Piece) (w : Work) : Work :=
  let t := TDesc.parse ((o.descs.getD 0 {}).bytes) ((o.descs.getD 1 {}).bytes)
  let src := o.bases.getD 0 0
  let r := rowGrains t
  if d.poison then w.bump cDescBad 1
  else
    ((List.range 16).filter fun i => decide (16 * j + i < n)).foldl (fun w i =>
      let c := clampIdx (indexOf d.bytes i) (d1Size t)
      let w := w.clampRows ring t true [indexOf d.bytes i]
      let ps := rowPieces ring t c.1 true
      let w := w.pastCount t.isLocal (ps.flatMap (·.at_))
      let mask := rowMask ring t c.1
      let row := 16 * j + i
      let more : List SrcGrain := (List.range r).map fun g =>
        ⟨src + (row * r + g) * 64,
         (ps.filter fun p => p.off / 64 == g).flatMap fun p =>
           (p.at_.filter fun f => !pastTop t.isLocal f).map fun f => (farIn tile.val t.isLocal f, p.off % 64, (mask.drop p.off).take p.len)⟩
      w.modOp o.id fun o => { o with srcs := o.srcs ++ more }) w

/-- A grain of a DOUT has been read: it takes a place in the outbound buffer until the last of its pieces has left. -/
def doutGrain (tile : TileId) (ring : RingAt) (o : OpRec) (g : Nat) (far : Far) (rtally : Option (Fin 8)) (ord : Order) (j : Nat) (d : Piece) (w : Work) : Work :=
  match far with
  | .plain _ =>
    let f := (o.bases.getD 0 0 + 64 * j) % 2 ^ 64
    let cuts := spanCuts f 64
    let w := { w with t := { w.t with outUsed := w.t.outUsed + 1 } }
    cuts.foldl (fun w p => w.send tile 3 o.id .write ord rtally ⟨none, (f + p.1) % 2 ^ 64⟩ ⟨(d.bytes.drop p.1).take p.2, d.poison⟩ (some j)) w
  | .window _ =>
    match windowOf ring.n o.descs with
    | .ok win =>
      let img := win.padImage ring.n ring.pos (min g win.grains) (zeros (64 * j) ++ d.bytes)
      let ps := ((win.pieces ring.n ring.pos (min g win.grains) true).filter fun p => p.off / 64 == j).flatMap fun p => p.at_.map fun f => (p, f)
      let w := w.pastCount win.d.isLocal (ps.map (·.2))
      let ps := ps.filter fun p => !pastTop win.d.isLocal p.2
      let w := { w with t := { w.t with outUsed := w.t.outUsed + (if ps.isEmpty then 0 else 1) } }
      ps.foldl (fun w p => w.send tile 3 o.id .write ord rtally (farIn tile.val win.d.isLocal p.2)
        ⟨(img.drop p.1.off).take p.1.len, d.poison⟩ (some j)) w
    | _ => w

/-- Store an accumulator row: narrowed, poisoned as the row is, folded and counted (05 R159, R168, 15 R474). -/
def tstoreRow (o : OpRec) (dst fmt : Nat) (intAcc rz : Bool) (exp : BitVec 8) (slot : Option (Fin 1024)) (cls : Nat) (mult : Word32)
    (zo : BitVec 8) (j : Nat) (w : Work) : Work :=
  let p := w.t.accFlag j
  let r := storeRow intAcc fmt rz exp slot.isSome mult zo p ((List.range 64).map (w.t.accWord j))
  let w := ((w.saturate cls r.sat).saturate 4 r.acc).fold slot r.fold
  w.addWrites [⟨o.issue + 4 + j, o.issue, 0, dst + j * rowBytes fmt, ⟨packCodes fmt r.codes, p⟩⟩]

/-- What a scheduled read delivers to its operation. -/
def Work.arrive (w : Work) (tile : TileId) (ring : RingAt) (r : SRead) (s : Served) : Work :=
  match w.op? r.op with
  | none => w
  | some o =>
    let k := w.t.sched.kbeat
    let d := s.span r.eng.val r.addr r.len
    let w := match o.op with
      | .tload .. => w.modOp o.id fun o => { o with bufs := o.bufs ++ [((if r.part == RPart.tloadScale then 1000 + r.k else r.k), d)] }
      | .tmul mov stat _ _ _ mx sx mz sz _ _ newStat =>
        if r.part == RPart.tmulScale then w.modOp o.id fun o => { o with scale := d }
        else
          let w := w.check newStat 0 o.cmd 3 0 1
          let sc := (o.scale.bytes.drop (2 * (r.k % 32))).take 2
          let vals := tmulRow mov.val stat.val mx sx mz sz w.t.active d.bytes sc
          w.addLand ⟨k + 65, o.issue, .accAdd r.k (intMode mov.val) vals
            (d.poison || (isMx mov.val && o.scale.poison) || w.t.active.poison)⟩
      | .tstore _ _ intAcc fmt rz exp slot cls mult zo newAcc =>
        tstoreRow o (o.bases.getD 0 0) fmt.val intAcc rz exp slot cls.val mult zo r.k (w.check newAcc 0 o.cmd 2 r.k (r.k + 1))
      | .vload rd _ _ _ _ =>
        w.addLand ⟨o.issue + 3, o.issue, .vreg rd.val r.off d.bytes
          ((List.range (cdiv (r.off % 64 + r.len) 64)).map fun g =>
            let lo := if g = 0 then 0 else 64 * g - r.off % 64
            let n := min (r.len - lo) (if g = 0 then 64 - r.off % 64 else 64)
            (s.span r.eng.val (r.addr + lo) n).poison)⟩
      | .glocal n _ _ _ _ newRow =>
        if r.part == RPart.index then glocalIndex ring o n r.k newRow d w
        else w.glocalRow o r d
      | .gremote n _ _ _ _ ord _ => gremoteIndex tile ring o ord n r.k d w
      | .scatter _ n _ _ _ _ _ _ => scatterIndex ring tile o n r.k d w
      | .dlocal .. => w.addWrites [⟨k + 3, o.issue, 3, o.bases.getD 0 0 + 64 * r.k, d⟩]
      | .dout g _ far _ rtally ord _ => doutGrain tile ring o g far rtally ord r.k d w
      | _ => w
    w.readDone o.id

/-! ## Landings in registers -/

/-- A vector register's bytes land; a grain written whole takes the new flag, one written in part keeps an old one too. -/
def Tile.landVreg (t : Tile) (rd off : Nat) (bytes : List Byte) (poison : List Bool) : Tile :=
  let g0 := off / 64
  { t with
    vreg := t.vreg.write (512 * rd + off) bytes
    vregPoison := (List.range poison.length).foldl (fun m i =>
      let g := g0 + i
      let whole := decide (off ≤ 64 * g) && decide (64 * g + 64 ≤ off + bytes.length)
      SMap.set false m (8 * rd + g) (poison.getD i false || (!whole && SMap.get false m (8 * rd + g)))) t.vregPoison }

/-- A row of accumulations lands (05 R154 to R156): class ACC counts, not of a poisoned row. -/
def Tile.landAcc (t : Tile) (row : Nat) (ints : Bool) (vals : List Num) (poison : Bool) : Tile :=
  let p := poison || t.accFlag row
  let rs := (List.range 64).map fun c => accumulate ints (t.accWord row c) (vals.getD c (.zero false))
  let acc := (List.range 64).foldl (fun m c => SMap.set 0 m (64 * row + c) (rs.getD c (0, false)).1) t.acc
  let t := { t with acc := acc, accPoison := SMap.set false t.accPoison row p }
  if p then t else t.saturate 4 (rs.countP (·.2))

/-- The stationary buffer that a TLOAD has gathered. -/
def gatheredStat (o : OpRec) (fmt : Nat) : Stat :=
  let grain (k : Nat) : Piece := ((o.bufs.find? (·.1 == k)).map (·.2)).getD {}
  { bytes := (List.range (tloadGrains fmt)).flatMap fun j => (grain j).bytes
    scales := if isMx fmt then (grain 1000).bytes ++ (grain 1001).bytes else []
    width := elemBits fmt, mx := isMx fmt, poison := o.bufs.any (·.2.poison) }

/-- The register landings of the beat that opens now (04 R121 to R124): the later issued of two results for one register is kept, a cleared row
discards its accumulation. -/
def Work.landRegs (w : Work) : Work :=
  let k := w.t.sched.kbeat
  let now := w.t.lands.filter fun l => l.beat == k
  let w := { w with t := { w.t with lands := w.t.lands.filter fun l => l.beat != k } }
  let zero := now.any fun l => l.what == .accZero
  let w := if zero then { w with t := { w.t with acc := [], accPoison := [] } } else w
  now.foldl (fun w l =>
    match l.what with
    | .vreg rd off bytes poison =>
      if now.any fun x => (match x.what with | .vreg r2 _ _ _ => r2 == rd && decide (l.issue < x.issue) | _ => false) then w.bump cRegLost 1
      else { w with t := w.t.landVreg rd off bytes poison }
    | .accAdd row ints vals p => if zero then w.bump cRegLost 1 else { w with t := w.t.landAcc row ints vals p }
    | .accZero => w
    | .shadow id =>
      (match w.op? id with
       | some o =>
         let fmt := (match o.op with | .tload f .. => f.val | _ => 3)
         { w with t := { w.t with shadow := gatheredStat o fmt, ops := w.t.ops.filter (·.id != id) } }
       | none => w)
    | .swap => { w with t := { w.t with active := w.t.shadow, shadow := w.t.active } }) w

/-! ## Scatter's source reads (04 R520) -/

/-- Banks that a source grain needs: those of its grains within the scratchpad (06 R187). -/
def srcBanks (s : SrcGrain) : List Nat := ((grainsAt s.addr 64).filter fun g => decide (g ≤ topGrain)).map bankOf

/-- Read source grains whose banks are free in this beat, in the order of their operations, and send their pieces: `room` bank reads are left of the gather
engine's four (03 R84, 04 R520). -/
def scatterSources (tile : TileId) (busy : List Nat) (room : Nat) : Nat → Work → Work
  | 0, w => w
  | fuel + 1, w =>
    let pick := w.t.ops.findSome? fun o =>
      (o.srcs.find? fun s => decide ((srcBanks s).length ≤ room) && !(srcBanks s).any busy.contains).map fun s => (o, s)
    match pick with
    | none => w
    | some (o, s) =>
      let comb := (match o.op with | .scatter c .. => c | _ => none)
      let gs := grainsAt s.addr 64
      let r := gs.foldl (fun (acc : List Byte × Bool × Work) g =>
        let x := if topGrain < g then (acc.2.2.t.topCopy, acc.2.2.bump cClampHigh 1) else acc.2.2.readGrain tile.val g
        let w := x.2
        (acc.1 ++ x.1.bytes, acc.2.1 || x.1.poison, if x.1.poison then w.poisonIn 1 else w)) ([], false, w)
      let data := (r.1.drop (s.addr % 64)).take 64
      let w := r.2.2.modOp o.id fun o => { o with srcs := o.srcs.erase s }
      let w := s.dests.foldl (fun w d =>
        let bytes := ((data.drop d.2.1).take d.2.2.length).zipWith (· &&& ·) d.2.2
        w.send tile 2 o.id (match comb with | some c => .combine c | none => .write) o.ord none d.1 ⟨bytes, r.2.1⟩) w
      scatterSources tile (srcBanks s ++ busy) (room - (srcBanks s).length) fuel w

end Sys2Proof.Machine
end

