-- ==== Sys2Proof/Machine/StateMem.lean ====
section
/-!
DEFINITION. The state of the memory tiers (07 R206 to R236, 09 R304) and of the Privet units (08 R242 to R283).
-/

namespace Sys2Proof.Machine

/-- How a protected word was last written (07 R211). A board-tier word outside every entry is `plain`: it carries no metadata (R226). -/
inductive WMode where
  | sealed | open | poison | plain
  deriving DecidableEq, Repr

/-- A protected word: its mode as written, and the stored bits since disturbed, as a mask over its 256 data bits and, above them, its
32 metadata bits. -/
structure WordX where
  mode : WMode := .sealed
  flips : Nat := 0
  deriving DecidableEq, Repr

/-- An entry of a Region Table (07 R217, R236). -/
structure Region where
  valid : Bool := false
  isSealed : Bool := false
  converting : Bool := false
  base : Nat := 0
  limit : Nat := 0
  deriving DecidableEq, Repr

/-- A region command accepted and not yet applied (07 R220). -/
structure RegionCmd where
  op : Nat
  entry : Nat
  base : Nat
  limit : Nat
  deriving DecidableEq, Repr

/-- A conversion in progress (07 R221, R222): entry, page, next grain of the page, target mode, a zero fill (board DEFINE), and whether the page has met
a real error. -/
structure Conv where
  entry : Nat
  page : Nat
  grain : Nat := 0
  toSealed : Bool
  fill : Bool
  erred : Bool := false
  /-- Words written as poison so far. -/
  poisoned : Nat := 0
  deriving DecidableEq, Repr

/-- A memory tier: stack 0 to 7, or the board tier, 8. -/
structure Tier where
  /-- Bytes by tier offset, each combined with its page's fill byte (log 5): an unlisted byte reads as the fill byte. -/
  mem : ByteMap := []
  /-- Fill generation of a page not listed in `fillPage`: 0 is zero, others are undefined contents. -/
  fillBase : Nat := 0
  fillPage : SMap Nat := []
  /-- Generation of a 2 KiB row segment replaced by a repair (07 R233), where later than its page's. -/
  fillRow : SMap Nat := []
  nextFill : Nat := 2
  /-- Protected words that are not as the tier's pages start, by word number. -/
  words : SMap WordX := []
  entries : SMap Region := []
  pages : SMap Nat := []
  /-- Rows where an error was found, by page: pseudo-channel and bank (07 R233). -/
  badRows : List (Nat × Nat × Nat) := []
  /-- Pages whose repair has failed: they stay Blighted (07 R233). -/
  noRepair : List Nat := []
  /-- Banks whose soft-repair row is in use, and hard-repair rows used, by 64 × (16 × SID + bank) + pseudo-channel. -/
  softUsed : SMap Nat := []
  hardUsed : SMap Nat := []
  pending : Option RegionCmd := none
  conv : Option Conv := none
  result : Nat := 0
  pageResult : Nat := 0
  lastPage : Nat := 0
  /-- Counters OD (0x7200 + k).sub, by subindex. -/
  cnt : SMap Nat := []
  /-- Next grain of the patrol, and words corrected in the page under patrol (07 R229). -/
  scrubAt : Nat := 0
  scrubFixed : Nat := 0
  /-- Rows in which the page under patrol had words corrected. -/
  scrubRows : List (Nat × Nat) := []
  /-- When the pass of the interval in progress began, and whether it is over (07 R229). -/
  scrubFrom : Option Nat := none
  scrubDone : Bool := false
  /-- Release tags (09 R304), oldest written first: grain and tag; the board tier's halves share the list by their grains. -/
  tags : List (Nat × RelTag) := []
  /-- Refresh intervals postponed, by 64 × pseudo-channel + bank (08 R278). -/
  refresh : SMap Nat := []
  /-- Whom the rotation of a pseudo-channel granted last: 1 the die, 2 the unit (08 R260). -/
  lastGrant : SMap Nat := []
  /-- Accesses granted at the pseudo-channel being converted, beside an asking unit, since the conversion's last (07 R223). -/
  convWait : Nat := 0
  /-- The stack's units are in Doze (14 R466). -/
  doze : Bool := false
  deriving DecidableEq, Repr

/-- A command of a Privet unit: its grain, and whether it came with bad parity (15 R482). -/
structure UCmd where
  bytes : List Byte
  bad : Bool := false
  deriving DecidableEq, Repr

/-- What a unit's command has met so far (08 R249). -/
structure UAcc where
  /-- A poisoned operand. -/
  pois : Bool := false
  /-- Data of the core dies contributed. -/
  used : Bool := false
  narrow : Nat := 0
  attEmpty : Bool := false
  probeLimit : Bool := false
  low : Nat := 0
  high : Nat := 0
  sats : Nat := 0
  /-- An empty primitive was invoked. -/
  zeroLen : Bool := false
  deriving DecidableEq, Repr

/-- Where a micro-program stands (08 R257): its next word, the 16 registers, and its hardware loops, innermost first: first word, last word, rounds left. -/
structure Micro where
  pc : Nat
  regs : List Nat := List.replicate 16 0
  loops : List (Nat × Nat × Nat) := []
  deriving DecidableEq, Repr

/-- The command a unit is running (08 R247 to R249). -/
structure URun where
  cmd : UCmd
  startTs : Nat
  micro : Micro := { pc := 0 }
  acc : UAcc := {}
  /-- What it had met when the primitive in hand began. -/
  base : UAcc := {}
  /-- Core-die accesses that the primitive in hand has made, and what each of its reads and writes so far, of core dies and buffer, gave. -/
  made : Nat := 0
  past : List (List (Byte × Bool)) := []
  /-- Open rows by bank, each one more than its 2 KiB block of the unit's memory; the bank that the unit activates next (08 R279). -/
  rows : SMap Nat := []
  next : Option Nat := none
  /-- Activations since the last yield point; none before the first. -/
  acts : Option Nat := none
  /-- Its primitive has run: what follows is the wait for acknowledgements. -/
  computed : Bool := false
  status : Nat := 0
  /-- Its result record. -/
  record : List Byte := []
  yields : Nat := 0
  pauseBeats : Nat := 0
  pauseNs : Nat := 0
  paused : Bool := false
  pausedAt : Nat := 0
  /-- Writes sent and not acknowledged. -/
  acks : Nat := 0
  deriving DecidableEq, Repr

/-- A Privet unit (08 R243 to R258). -/
structure PUnit where
  load : Bool := false
  loadAddr : Nat := 0
  crc : Nat := 0
  crcValid : Bool := false
  /-- Loading has ended and the CRC is not in yet. -/
  crcDue : Bool := false
  pauseLongest : Nat := 0
  /-- Counters by offset 0xC0 to 0xFC. -/
  cnt : SMap Nat := []
  lastStatus : Nat := 0
  lastTag : Nat := 0
  lastRecord : List Byte := []
  queue : List UCmd := []
  running : Option URun := none
  tokenWait : Bool := false
  buffer : ByteMap := []
  /-- Buffer words of 64 bits: 1 poison, 2 correctable, 3 uncorrectable. -/
  bufWords : SMap Nat := []
  store : SMap Nat := []
  deriving DecidableEq, Repr

/-- A scratchpad access of one grain by a block that waits for it, for what it works on: die address, length, data where it is a write; and what a read has
brought (03 R94). -/
structure PortAcc where
  who : Nat
  addr : Nat
  len : Nat
  data : Option Piece
  got : Piece := {}
  deriving DecidableEq, Repr

end Sys2Proof.Machine
end

