-- ==== Sys2Proof/Machine/MemOps.lean ====
section
/-!
DEFINITION. The memory tiers: contents, protected words and their codes, the Region Table and page states as accesses meet them,
reads, writes and atomics of a grain at its home (07 R209 to R232, R522), scrubbing and conversion of a grain.
-/

namespace Sys2Proof.Machine

/-- Size of a tier in bytes (07 R206). -/
def tierBytes (k : Nat) : Nat := if k < 8 then 0x1000000000 else 0xC00000000

/-- Pages of a tier. -/
def tierPages (k : Nat) : Nat := tierBytes k / 0x200000

/-- Page of a tier offset. -/
def pageOf (off : Nat) : Nat := off / 0x200000

/-- Pseudo-channel of a stack offset, and its bank among the pseudo-channel's 64: 16 × stack ID + bank (07 R209). -/
def pchOf (off : Nat) : Nat := bits off 11 6
def bank64 (off : Nat) : Nat := bits off 17 6

/-- Device of the board tier that holds an offset, and the offset in it: 2 KiB blocks go round the six devices of a half (07 R225). -/
def boardDevice (off : Nat) : Nat × Nat :=
  let h := off / 0x600000000
  let b := off % 0x600000000 / 2048
  (6 * h + b % 6, b / 6 * 2048 + off % 2048)

/-! ## Contents -/

/-- The fill byte at an offset (log 5). -/
def Tier.fill (t : Tier) (off : Nat) : Byte :=
  let g := max (SMap.get t.fillBase t.fillPage (pageOf off)) (SMap.get 0 t.fillRow (off / 2048))
  if g = 0 then 0#8 else Config.undefByte g off

def Tier.byte (t : Tier) (off : Nat) : Byte := SMap.get 0#8 t.mem off ^^^ t.fill off

def Tier.bytes (t : Tier) (off n : Nat) : List Byte := (List.range n).map fun i => t.byte (off + i)

def Tier.put (t : Tier) (off : Nat) : List Byte → Tier
  | [] => t
  | b :: bs => Tier.put { t with mem := SMap.set 0#8 t.mem off (b ^^^ t.fill off) } (off + 1) bs

/-- The contents of a page become undefined (07 R219). -/
def Tier.forget (t : Tier) (page : Nat) : Tier :=
  { t with
    mem := SMap.drop t.mem fun a => a / 0x200000 == page
    words := SMap.drop t.words fun w => w / 65536 == page
    fillPage := SMap.set t.fillBase t.fillPage page t.nextFill
    nextFill := t.nextFill + 1 }

/-- First offset of the 2 KiB segment of a page that pseudo-channel `pch` and bank `bank` hold (07 R209). -/
def rowOffset (page pch bank : Nat) : Nat := page * 0x200000 + bank * 0x20000 + pch * 0x800

/-- The contents of a replaced row become undefined (07 R233); its words count as written in their page's mode (log 17). -/
def Tier.replaceRow (t : Tier) (page pch bank : Nat) : Tier :=
  let o := rowOffset page pch bank
  { t with
    mem := SMap.drop t.mem fun a => a / 2048 == o / 2048
    words := (SMap.drop t.words fun w => w / 64 == o / 2048)
    fillRow := SMap.set 0 t.fillRow (o / 2048) t.nextFill
    nextFill := t.nextFill + 1 }

/-! ## Regions -/

/-- The entry that covers a page: number and entry (07 R217). -/
def Tier.entryOf (t : Tier) (page : Nat) : Option (Nat × Region) :=
  ((List.range 32).map fun e => (e, SMap.get {} t.entries e)).find? fun x =>
    x.2.valid && decide (x.2.base ≤ page) && decide (page ≤ x.2.limit)

/-- How an access of the die meets a page's mode (07 R217, R221, R226). -/
inductive PageMode where
  | sealed | open | plain
  /-- The page being converted. -/
  | waits
  /-- Page 8 of a Sealed group of the board tier. -/
  | check
  deriving DecidableEq, Repr

def Tier.mode (t : Tier) (k page : Nat) : PageMode :=
  match t.entryOf page with
  | none => if k < 8 then .sealed else .plain
  | some (e, r) =>
    let conv := t.conv.filter (·.entry == e)
    match conv with
    | some c =>
      if page = c.page then .waits
      else if k < 8 then
        (if decide (page < c.page) == c.toSealed then .sealed else .open)
      -- a page not yet reached is met in its old mode, the groups' check pages included
      else if c.page < page then .plain
      else if (page - r.base) % 9 = 8 then .check else .sealed
    | none =>
      if k < 8 then (if r.isSealed then .sealed else .open)
      else if (page - r.base) % 9 = 8 then .check else .sealed

/-- State of a page (07 R231): 0 in service, 1 Blighted, 2 Repaired, 3 Restoring. -/
def Tier.page (t : Tier) (page : Nat) : Nat := SMap.get 0 t.pages page

/-! ## Protected words -/

/-- A word as its tier's pages start: a stack's is Sealed (07 R224), the board tier's has no metadata. -/
def wordStart (k : Nat) : WordX := if k < 8 then {} else { mode := .plain }

def Tier.word (t : Tier) (k w : Nat) : WordX := SMap.get (wordStart k) t.words w

def Tier.setWord (t : Tier) (k w : Nat) (x : WordX) : Tier :=
  { t with words := SMap.set (wordStart k) t.words w x }

/-- Disturbed symbols of a word: of 72, symbol 71 the mode nibble. -/
def symbolsHit (flips : Nat) : Nat := (List.range 72).countP fun i => bits flips (4 * i) 4 != 0

/-- The mode nibble as written (07 R211). -/
def WMode.nibble : WMode → Nat
  | .sealed => 0xA
  | .open => 0x5
  | .poison => 0xC
  | .plain => 0

def WMode.code : WMode → Nat
  | .sealed => 0
  | .open => 1
  | _ => 2

/-- The mode nibble as stored now. -/
def WordX.nibble (x : WordX) : Nat := x.mode.nibble ^^^ bits x.flips 284 4

/-- What a check finds of a word. -/
inductive Found where
  | ok (data : List Byte) (corrected : Bool)
  | mismatch | poisoned | uncorr
  deriving DecidableEq, Repr

/-- A word that does not decode is classed by its stored nibble (07 R213). -/
def WordX.sealedClass (x : WordX) : Found :=
  if x.nibble = 0x5 then .mismatch else if x.nibble = 0xC then .poisoned else .uncorr

/-- Data with its disturbed bits. -/
def flipBytes (flips : Nat) (d : List Byte) : List Byte :=
  (List.range d.length).map fun i => d.getD i 0#8 ^^^ BitVec.ofNat 8 (bits flips (8 * i) 8)

/-- A word of a Sealed page decoded (07 R213, R522). DESIGN CHOICE (log 120): one of a board page that a DEFINE's fill passed over, and that nothing has written since, is sound. -/
def WordX.decodeSealed (x : WordX) (d : List Byte) : Found :=
  let n := symbolsHit x.flips
  let many : Found :=
    match Config.sealedMany x.mode.code x.flips d with
    | some d' => .ok d' true
    | none => x.sealedClass
  match x.mode with
  | .sealed => if n = 0 then .ok d false else if n = 1 then .ok d true else if n = 2 then x.sealedClass else many
  | .open => if n = 0 then (if Config.sealedDecodesOpen d then .ok d true else .mismatch) else many
  | .poison => if n ≤ 1 then x.sealedClass else many
  | .plain => .ok d false

/-- Is the parity of 64-bit word `i` of an Open word wrong: an odd number of disturbed bits among it and its parity bit? -/
def parityWrong (flips i : Nat) : Bool :=
  ((List.range 64).countP (fun b => (bits flips (64 * i) 64).testBit b) + b2n (flips.testBit (256 + i))) % 2 == 1

/-- A word of an Open page as the base die reads it (07 R214). -/
def WordX.decodeOpen (x : WordX) (d : List Byte) : Found :=
  if x.nibble = 0xA then .mismatch
  else if x.nibble = 0xC then .poisoned
  else if x.nibble = 0x5 then
    (match x.mode with
     | .open =>
       if (List.range 4).any (parityWrong x.flips) then .uncorr else .ok (flipBytes x.flips d) false
     | m => if Config.strayParity m.code x.flips d then .ok (flipBytes x.flips d) false else .uncorr)
  else .uncorr

/-! ## A tier at work within one step -/

/-- A tier with what its accesses have raised: events, and pages blighted with their cause. -/
structure TWork where
  k : Nat
  t : Tier
  evs : List Ev := []
  blights : List (Nat × Nat) := []
  deriving DecidableEq, Repr

/-- Bits of a tier's counters (07 R241): 32 for the saturating ones. -/
def tierCntBits (k sub : Nat) : Nat :=
  if k < 8 then (if sub = 1 || sub = 0xB || sub = 0xE then 64 else 32) else (if sub = 2 then 32 else 64)

def TWork.count (w : TWork) (sub n : Nat) : TWork :=
  { w with t := { w.t with cnt := SMap.mod 0 w.t.cnt sub (satAdd (tierCntBits w.k sub) · n) } }

def TWork.symCorr (w : TWork) : TWork := w.count (if w.k < 8 then 1 else 4) 1
def TWork.uncorr (w : TWork) : TWork := w.count 2 1
def TWork.mismatch (w : TWork) (page : Nat) : TWork :=
  let w := if w.k < 8 then w.count 3 1 else w
  { w with evs := w.evs ++ [{ code := 0x25, source := 0x80 + w.k, args := [w.k, page] }] }
def TWork.poisonRead (w : TWork) : TWork := if w.k < 8 then w.count 4 1 else w

/-- A page is recorded as Blighted (07 R228, R231), with the row of the error where there is one. -/
def TWork.blight (w : TWork) (page cause : Nat) (row : Option (Nat × Nat)) : TWork :=
  let t := match row with
    | some (p, b) => if w.k < 8 && !w.t.badRows.contains (page, p, b) then { w.t with badRows := w.t.badRows ++ [(page, p, b)] } else w.t
    | none => w.t
  if t.page page = 1 || t.page page = 2 then { w with t := t }
  else
    { w with
      t := { t with pages := SMap.set 0 t.pages page 1 }
      evs := w.evs ++ [{ code := 0x20, source := 0x80 + w.k, args := [w.k, page, cause] }]
      blights := w.blights ++ [(page, cause)] }

/-- Pseudo-channel and bank of a stack offset (07 R209). -/
def rowAt (off : Nat) : Nat × Nat := (bits off 11 6, bits off 17 4)

/-- Physical disturbance of a grain's two words. -/
def TWork.disturb (w : TWork) (grain : Nat) (u : Upset) : TWork :=
  let hit (t : Tier) (i m : Nat) : Tier :=
    let x := t.word w.k (2 * grain + i)
    if m = 0 || x.mode == .plain then t else t.setWord w.k (2 * grain + i) { x with flips := x.flips ^^^ (m % 2 ^ 288) }
  let w := { w with t := hit (hit w.t 0 u.w0) 1 u.w1 }
  if w.k = 8 then (w.count 1 u.devCorr).count 3 u.retries else w

/-- What a check of word `n` of a page in `mode` finds. -/
def TWork.find (w : TWork) (mode : PageMode) (n : Nat) : Found :=
  let x := w.t.word w.k n
  let d := w.t.bytes (32 * n) 32
  match mode with
  | .sealed => x.decodeSealed d
  | .open => x.decodeOpen d
  | _ => .ok d false

/-- Count and report what a read of word `n` found (07 R213, R214, R228). -/
def TWork.report (w : TWork) (n : Nat) (f : Found) : TWork :=
  let page := pageOf (32 * n)
  match f with
  | .ok _ c => if c then w.symCorr else w
  | .mismatch => w.mismatch page
  | .poisoned => w.poisonRead
  | .uncorr => (if w.k < 8 then w.uncorr else w).blight page 1 (some (rowAt (32 * n)))

/-- The board tier counts uncorrectable grains, a stack uncorrectable words (07 R241). -/
def TWork.grainUncorr (w : TWork) (fs : List Found) : TWork := if w.k = 8 && fs.contains .uncorr then w.uncorr else w

/-- The data a check delivers; where it delivers none, undefined bytes that its caller poisons. -/
def Found.data : Found → List Byte
  | .ok d _ => d
  | _ => noData 32

def Found.bad : Found → Bool
  | .ok _ _ => false
  | _ => true

/-- Outcome of an access to a grain at its home. -/
structure Acc where
  w : TWork
  data : List Byte
  poison : Bool
  /-- Completion status as in `Txn.status`. -/
  status : Nat
  unchecked : Bool := false
  /-- The poison of each protected word (08 R259). -/
  words : Bool × Bool := (false, false)
  deriving DecidableEq, Repr

/-- A refused access: poison, nothing performed. -/
def TWork.refuse (w : TWork) (status : Nat) : Acc := ⟨w, noData 64, true, status, false, (true, true)⟩

/-- A grain is read (07 R228): its 64 bytes. -/
def TWork.readGrain (w : TWork) (grain : Nat) (u : Upset) : Acc :=
  let page := pageOf (64 * grain)
  let mode := w.t.mode w.k page
  if mode == .check then w.refuse 6
  else if w.t.page page != 0 then w.refuse 5
  else
    let w := w.disturb grain u
    if mode == .plain then
      if u.devBad then ((w.uncorr).blight page 1 none).refuse 5
      else ⟨w, w.t.bytes (64 * grain) 64, false, 0, true, (false, false)⟩
    else
      let a := w.find mode (2 * grain)
      let b := w.find mode (2 * grain + 1)
      let w := ((w.report (2 * grain) a).report (2 * grain + 1) b).grainUncorr [a, b]
      let p := a.bad || b.bad
      ⟨w, a.data ++ b.data, p, if p then 5 else 0, mode == .open, (a.bad, b.bad)⟩

/-- The mode in which a page's writes are encoded. -/
def PageMode.wmode : PageMode → WMode
  | .sealed => .sealed
  | .open => .open
  | _ => .plain

/-- Bits of 64-bit words of a protected word that bytes `lo` to `hi` cover whole, with their parity bits. -/
def wholeMask (lo hi : Nat) : Nat :=
  (List.range 4).foldl (fun m i =>
    if lo ≤ 8 * i ∧ 8 * i + 8 ≤ hi then m ||| ((2 ^ 64 - 1) * 2 ^ (64 * i)) ||| 2 ^ (256 + i) else m) 0

/-- Bytes `lo` up to `hi` of word `n` are written with `d` (07 R215, R216): outcome, and what a read part found that kept it from being performed. -/
def TWork.writeWord (w : TWork) (mode : PageMode) (n lo hi : Nat) (d : List Byte) (poison : Bool) : TWork × List Found :=
  let x := w.t.word w.k n
  let done (w : TWork) (x : WordX) : TWork := { w with t := (w.t.put (32 * n + lo) d).setWord w.k n x }
  if mode == .plain then (done w { mode := .plain }, [])
  else if poison then (done w { mode := .poison }, [])
  else if lo = 0 ∧ hi = 32 then (done w { mode := mode.wmode }, [])
  else if mode == .open && lo % 8 == 0 && hi % 8 == 0 then
    let m := wholeMask lo hi
    (done w { x with flips := x.flips - (x.flips &&& m) }, [])
  else
    let f := w.find mode n
    let w := w.report n f
    match f with
    | .ok old _ =>
      let w := { w with t := w.t.put (32 * n) old }
      (done w { mode := mode.wmode }, [])
    | .uncorr => ({ w with t := w.t.setWord w.k n { mode := .poison } }, [f])
    | _ => (w, [f])

/-- Part of a span that lies in word `n`: first and last byte in the word, and the data. -/
def spanInWord (off : Nat) (d : List Byte) (n : Nat) : Nat × Nat × List Byte :=
  let lo := max off (32 * n)
  let hi := min (off + d.length) (32 * n + 32)
  (lo - 32 * n, hi - 32 * n, (d.drop (lo - off)).take (hi - lo))

/-- A grain is stored as two poison words (07 R215). -/
def Tier.poisonGrain (t : Tier) (k grain : Nat) : Tier := (t.setWord k (2 * grain) { mode := .poison }).setWord k (2 * grain + 1) { mode := .poison }

/-- Bytes of one grain are written (07 R215, R216, R226, R228). -/
def TWork.writeGrain (w : TWork) (off : Nat) (d : List Byte) (poison : Bool) (u : Upset) : Acc :=
  let page := pageOf off
  let mode := w.t.mode w.k page
  if mode == .check then w.refuse 6
  else if w.t.page page = 1 || w.t.page page = 2 then w.refuse 5
  else if d.isEmpty then ⟨w, [], false, 0, mode == .plain, (false, false)⟩
  else
    let w := w.disturb (off / 64) u
    if mode == .plain && poison then (w.blight page 5 none).refuse 5
    else if poison then ⟨{ w with t := (w.t.put off d).poisonGrain w.k (off / 64) }, [], false, 0, false, (false, false)⟩
    else
      let first := off / 32
      let last := (off + d.length - 1) / 32
      let r := (List.range (last + 1 - first)).foldl (fun (acc : TWork × List Found) i =>
        let s := spanInWord off d (first + i)
        let x := acc.1.writeWord mode (first + i) s.1 s.2.1 s.2.2 poison
        (x.1, acc.2 ++ x.2)) (w, [])
      ⟨r.1.grainUncorr r.2, [], false, if r.2.isEmpty then 0 else 5, mode == .plain, (false, false)⟩

/-- An atomic on elements of one grain: `f` of the old bytes gives the new ones (07 R216, R228, 09 R306). The data is the old value. -/
def TWork.atomicGrain (w : TWork) (off n : Nat) (f : List Byte → List Byte) (poison : Bool) (u : Upset) : Acc :=
  let page := pageOf off
  let mode := w.t.mode w.k page
  if mode == .check then w.refuse 6
  else if w.t.page page != 0 then w.refuse 5
  else if n = 0 then ⟨w, [], false, 0, false, (false, false)⟩
  else
    let w := w.disturb (off / 64) u
    if mode == .plain then
      if u.devBad then ((w.uncorr).blight page 1 none).refuse 5
      else if poison then (w.blight page 5 none).refuse 5
      else
        let old := w.t.bytes off n
        ⟨{ w with t := w.t.put off (f old) }, old, false, 0, true, (false, false)⟩
    else
      let first := off / 32
      let last := (off + n - 1) / 32
      let ws := (List.range (last + 1 - first)).map (first + ·)
      let fs := ws.map fun i => (i, w.find mode i)
      let w := (fs.foldl (fun w x => w.report x.1 x.2) w).grainUncorr (fs.map (·.2))
      if fs.any (·.2.bad) then w.refuse 5
      else
        let all := fs.flatMap (·.2.data)
        let old := (all.drop (off - 32 * first)).take n
        let new := all.take (off - 32 * first) ++ f old ++ all.drop (off - 32 * first + n)
        let t := w.t.put (32 * first) new
        let t := if poison then t.poisonGrain w.k (off / 64) else ws.foldl (fun t i => t.setWord w.k i { mode := mode.wmode }) t
        ⟨{ w with t := t }, old, false, 0, mode == .open, (false, false)⟩

/-! ## Scrubbing (07 R229, R230) -/

/-- One word of the patrol: corrected words in a Sealed page are written back, uncorrectable Open words become poison words. DESIGN CHOICE (log 120): an uncorrectable
word of a Sealed page is reported and left as it is; poison words and words of another mode count and raise events as for a read. -/
def TWork.scrubWord (w : TWork) (mode : PageMode) (n : Nat) : TWork :=
  let f := w.find mode n
  match mode with
  | .sealed =>
    (match f with
     | .ok d true =>
       let w := w.symCorr
       let row := rowAt (32 * n)
       { w with t := { ((w.t.put (32 * n) d).setWord w.k n { mode := .sealed }) with
          scrubFixed := w.t.scrubFixed + 1, scrubRows := if w.t.scrubRows.contains row then w.t.scrubRows else w.t.scrubRows ++ [row] } }
     | f => w.report n f)
  | .open =>
    let w := w.report n f
    if f == .uncorr then { w with t := w.t.setWord w.k n { mode := .poison } } else w
  | _ => w

/-! ## Conversion of a grain (07 R222) -/

/-- One word of a conversion. -/
def TWork.convertWord (w : TWork) (toSealed : Bool) (n : Nat) : TWork :=
  let x := w.t.word w.k n
  let d := w.t.bytes (32 * n) 32
  let f := if toSealed then x.decodeOpen d else x.decodeSealed d
  let poisonIt (w : TWork) : TWork := { w with t := w.t.setWord w.k n { mode := .poison } }
  match f with
  | .ok d c =>
    let w := if c then w.symCorr else w
    { w with t := (w.t.put (32 * n) d).setWord w.k n { mode := if toSealed then .sealed else .open } }
  | .poisoned => poisonIt w
  | .mismatch =>
    let w := (poisonIt w).count 8 1
    { w with t := { w.t with conv := w.t.conv.map fun c => { c with poisoned := c.poisoned + 1 } } }
  | .uncorr =>
    let w := (poisonIt w).count 8 1
    { w with t := { w.t with
        conv := w.t.conv.map fun c => { c with erred := true, poisoned := c.poisoned + 1 }
        badRows := if w.t.badRows.contains (pageOf (32 * n), rowAt (32 * n)) then w.t.badRows
          else w.t.badRows ++ [(pageOf (32 * n), rowAt (32 * n))] } }

end Sys2Proof.Machine
end

