-- ==== Sys2Proof/Machine/StateNet.lean ====
section
/-!
DEFINITION. The state of the hedges and launches (03 R79 to R83, 04 R119), of the arbiters (03 R104 to R109), of the
regulators' buckets (07 R238, 10 R341, 12 R413) and of the Briar links (12 R391 to R414).
-/

namespace Sys2Proof.Machine

/-- Who launched a kernel (04 R119): a host operation, or Laurel's step program. -/
inductive Launcher where
  | hostOp (op : Nat)
  | laurel
  deriving DecidableEq, Repr

/-- A kernel launched and not completed (04 R119). -/
structure Launch where
  id : Nat
  by_ : Launcher
  part : Option Nat
  kernelId : Nat
  streamAddr : Nat
  words : Nat
  masks : List Nat
  /-- Tiles that it names. -/
  open_ : List Nat
  deriving DecidableEq, Repr

/-- A launch packet on its way to a hedge (03 R79): the header, and up to 24 words it carries. -/
structure LaunchPkt where
  launch : Nat
  hedge : HedgeId
  mask : Nat
  kernelId : Nat
  addr : Nat
  words : Nat
  /-- Words carried, with a mark for an uncorrectable one. -/
  carried : List (Nat × Bool)
  deriving DecidableEq, Repr

/-- A stream held by a sequencer (03 R79 to R82): words not yet broadcast in order, index of the next, words asked for. -/
structure Stream where
  launch : Nat
  mask : Nat
  kernelId : Nat
  addr : Nat
  words : Nat
  /-- Words held, by index, with a mark for an uncorrectable one. -/
  held : List (Nat × Nat × Bool)
  next : Nat
  /-- Fetches outstanding. -/
  fetching : List Nat
  asked : Nat
  deriving DecidableEq, Repr

/-- A hedge sequencer. -/
structure Hedge where
  streams : List Stream := []
  waiting : List LaunchPkt := []
  deriving DecidableEq, Repr

/-- An end notice a tile has sent to its launcher (04 R119). -/
structure EndNotice where
  launch : Nat
  tile : Nat
  fault : Nat
  poisoned : Bool
  unchecked : Bool
  zeroLen : Bool
  deriving DecidableEq, Repr

/-- One requester's counters and wait at an arbiter (03 R109). -/
structure ArbReq where
  grants : Nat := 0
  waitBeats : Nat := 0
  longest : Nat := 0
  /-- Beats its current request has waited, and those of them since it last became eligible (07 R239). -/
  waiting : Nat := 0
  eligible : Nat := 0
  requesting : Bool := false
  deriving DecidableEq, Repr

/-- An arbiter (03 R104 to R109): grants since the last starvation grant, last requester granted, longest wait since the start (13 R448). -/
structure Arb where
  since : Nat := 0
  last : Nat := 7
  longest : Nat := 0
  reqs : SMap ArbReq := []
  deriving DecidableEq, Repr

/-- A packet of Briar (12 R402 to R404): header fields and data slots. -/
structure BriarPkt where
  ty : Nat
  west : Bool
  high : Bool
  dst : Nat
  src : Nat
  part : Nat := 0
  status : Nat := 0
  tag : Nat := 0
  op : Nat := 0
  release : Bool := false
  rtally : Option (Fin 8) := none
  addr : Nat := 0
  len : Nat := 0
  poison : Nat := 0
  relTag : Option (Nat × Nat × Nat) := none
  data : List (List Byte) := []
  /-- LSA: sequence and the four port states. IDENT: ring identifier, N, position, port. -/
  extra : List Nat := []
  /-- A request of this module's own: the partition whose link regulator acts on it, and its place among the packets of the module (09 R313, 12 R413). -/
  reg : Option Nat := none
  ord : Nat := 0
  /-- A packet received: the port and buffer set it came in by and that port's turn, whose slots are freed once it has left or has been taken. -/
  via : Option (Nat × Nat × Nat) := none
  deriving DecidableEq, Repr

/-- A slot of a frame (12 R397): its code, 0 empty, 1 packet header, 2 packet data, 3 abandon, and its bytes, none for zeros. -/
structure BSlot where
  code : Nat := 0
  bytes : List Byte := []
  /-- Of a slot that leaves: TYPE, SRC and DST of its packet, which say what waits for it on a change of route (09 R313). -/
  flow : Option (Nat × Nat × Nat) := none
  deriving DecidableEq, Repr

/-- A frame of 16 slots (12 R397). -/
structure BFrame where
  seq : Nat
  ack : Nat
  nak : Bool
  crSet : Nat := 0
  crSlots : Nat := 0
  slots : List BSlot := []
  deriving DecidableEq, Repr

/-- A packet whose slots are arriving (12 R402): what has come, how many data slots are still to come, and whether its sender has abandoned it (R400). -/
structure BRx where
  pkt : BriarPkt
  need : Nat
  cut : Bool := false
  deriving DecidableEq, Repr

/-- A Briar port (12 R394 to R402). -/
structure BriarPort where
  state : Nat := 0
  lanes : Nat := 0
  /-- TRAINING or RETRAINING since. -/
  since : Nat := 0
  cable : Bool := false
  nextSeq : Nat := 0
  lastAck : Nat := 4095
  ackTime : Nat := 0
  expect : Nat := 0
  nakSent : Bool := false
  /-- Frames sent and not acknowledged, oldest first. -/
  replay : List BFrame := []
  stuck : Nat := 0
  /-- Credits for the far end's four buffer sets, and slots of ours freed and not yet returned. -/
  credits : List Nat := [512, 512, 512, 512]
  freed : List Nat := [0, 0, 0, 0]
  /-- Packets of this module and in transit that wait for the port; slots of packets begun and still to be sent; the packet whose slots are arriving. -/
  queue : List BriarPkt := []
  transit : List BriarPkt := []
  tx : List BSlot := []
  cur : Option BRx := none
  /-- How often it has left UP: buffers of before are no longer the far end's to credit. -/
  turn : Nat := 0
  /-- Packets accepted for this module and not yet taken. -/
  inbox : List BriarPkt := []
  /-- OD (0x7500 + i).01 to .08. -/
  cnt : SMap Nat := []
  deriving DecidableEq, Repr

/-- An entry of the link map (12 R406). -/
structure LinkEntry where
  seq : Nat
  states : List Nat
  time : Nat
  deriving DecidableEq, Repr

/-- A remote request outstanding (12 R410): its access, and when it was sent. -/
structure RemoteReq where
  tag : Nat
  txn : Nat
  sent : Nat
  deriving DecidableEq, Repr

/-- A request of another module being performed here (12 R408): who asked, and what of its grains has been answered. -/
structure InReq where
  id : Nat
  src : Nat
  tag : Nat
  rd : Bool
  part : Nat
  addr : Nat
  len : Nat
  left : Nat
  data : List (Nat × List Byte) := []
  poison : Nat := 0
  status : Nat := 0
  relTag : Option (Nat × Nat × Nat) := none
  deriving DecidableEq, Repr

/-- The Briar links. -/
structure Briar where
  n : Nat := 0
  pos : Nat := 0
  ringId : Nat := 0
  ports : SMap BriarPort := []
  map : SMap (Option LinkEntry) := []
  lsaSeq : Nat := 0
  nextTag : Nat := 0
  reqs : List RemoteReq := []
  served : List InReq := []
  nextReq : Nat := 0
  /-- OD 0x7504.01 to .06. -/
  cnt : SMap Nat := []
  deriving DecidableEq, Repr

end Sys2Proof.Machine
end

