-- ==== Sys2Proof/Machine/StateLaurel.lean ====
section
/-!
DEFINITION. The state of Laurel (05 R167 to R174, 11 R355 to R390) and of the drain and step boundary (04 R139 to R144).
-/

namespace Sys2Proof.Machine

/-- A scale slot (05 R167). -/
structure Slot where
  declared : Bool := false
  exp : BitVec 8 := 0#8
  fmt : Nat := 0
  cls : Nat := 0
  kOverride : Bool := false
  kSlot : Nat := 0
  folded : Bool := false
  histCount : Nat := 0
  stepMax : Nat := 0
  updates : Nat := 0
  hist : List Nat := []
  /-- Its storage has been found uncorrectable in this interval (15 R481). -/
  lost : Bool := false
  /-- Laurel's second copy of FORMAT, CLASS, K_OVERRIDE and K_SLOT from the load (15 R481). -/
  copy : List Nat := []
  deriving DecidableEq, Repr

/-- A slice map entry (11 R358). -/
structure Slice where
  layer : Nat
  head : Nat
  extent : Nat
  unit : Nat
  kOff : Nat
  vOff : Nat
  rlSlot : Nat
  blockMod : Nat
  blockRem : Nat
  kSlot : Nat
  vSlot : Nat
  deriving DecidableEq, Repr

/-- The resident model declaration (11 R357). -/
structure Decl where
  layers : Nat
  kvHeads : Nat
  dh : Nat
  kvFmt : Nat
  spread : Nat
  extPerBlock : Nat
  maxBlocks : Nat
  eos : Nat
  chunk : Nat
  pack : Nat
  cRow : Nat
  cKv : Nat
  cPre : Nat
  rlSlots : Nat
  rlBase : Nat
  extStack : List Nat
  pools : List (Nat × Nat)
  spill : Nat × Nat
  bucketsLog2 : Nat
  bucketBase : Nat
  nodeBase : Nat
  stackNodes : Nat
  boardNodes : Nat
  boardNodeBase : Nat
  blocktab : Nat
  slices : List Slice
  weights : List Nat
  spares : List (Nat × Nat)
  kernels : List (List Byte)
  deriving DecidableEq, Repr

/-- A sequence-table entry (11 R361). -/
structure Seq where
  state : Nat := 0
  lc : Bool := false
  held : Bool := false
  cancel : Bool := false
  noReuse : Bool := false
  noInsert : Bool := false
  autoPaused : Bool := false
  part : Nat := 0
  kvFmt : Nat := 0
  gen : Nat := 0
  row : Option Nat := none
  specEpoch : Nat := 0
  len : Nat := 0
  next : Nat := 0
  promptLen : Nat := 0
  maxNew : Nat := 0
  generated : Nat := 0
  promptAddr : Nat := 0
  seed : Nat := 0
  temp : Nat := 0
  topK : Nat := 0
  draftCount : Nat := 0
  stop : Nat := 0
  goal : Nat := 0
  drafts : List Nat := []
  draftEpoch : Nat := 0
  shared : Nat := 0
  lastDelivery : Nat := 0
  since : Nat := 0
  admitStep : Nat := 0
  endReason : Nat := 0
  /-- Fault waiting for the boundary (11 R385). -/
  fault : Nat := 0
  /-- Removed by a partition reset at the next boundary, without an entry (11 R388). -/
  removed : Bool := false
  /-- Flags of its next batch entry (R376), and whether one is due. -/
  note : Nat := 0
  noted : Bool := false
  /-- Tokens delivered at the boundary in progress. -/
  out : List Nat := []
  /-- Is its next delivery measured against the goal (R374)? -/
  measured : Bool := false
  /-- When it was paused last (R374, R381). -/
  pausedAt : Nat := 0
  /-- Tokens generated, in order, from which blocks of the index are built (R384). -/
  toks : List Nat := []
  /-- Nodes matched or inserted, by block: the chain of the prefix index. -/
  chain : List Nat := []
  /-- A later block is not inserted after a skipped insertion (R384). -/
  stopInsert : Bool := false
  /-- Blocks for which extents have been allocated. -/
  blocks : Nat := 0
  deriving DecidableEq, Repr

/-- A KV Block Directory entry (11 R365). -/
structure Ext where
  state : Nat := 0
  tier : Nat := 0
  page : Nat := 0
  fmt : Nat := 0
  refs : Nat := 0
  indexed : Bool := false
  ext : Nat := 0
  gen : Nat := 0
  deriving DecidableEq, Repr

/-- An entry of the step frame (11 R370). -/
structure Entry where
  seq : Nat
  handle : Nat
  prefill : Bool
  sample : Bool
  spec : Bool
  kvFmt : Nat
  row : Nat
  pos : Nat
  ntok : Nat
  inputs : List Nat
  promptAt : Nat := 0
  seed : Nat
  temp : Nat
  topK : Nat
  deriving DecidableEq, Repr

/-- A run-list tail write of the step not yet acknowledged (11 R375): layer and access. -/
structure Tail where
  layer : Nat
  txn : Nat
  deriving DecidableEq, Repr

/-- The step in progress and the last closed one (11 R370 to R375, R386). -/
structure StepSt where
  num : Nat := 0
  running : Bool := false
  entries : List Entry := []
  rows : Nat := 0
  replay : Bool := false
  release : Nat := 0
  launched : Nat := 0
  tails : List Tail := []
  aborting : Bool := false
  /-- Output grains: 32 bytes of tokens and the rest, by entry. -/
  outs : SMap Piece := []
  /-- The step frame has an uncorrectable word (15 R481). -/
  lost : Bool := false
  deriving DecidableEq, Repr

/-- A RECEIVE buffer waiting (11 R376): operation, host address, length. -/
structure RecvBuf where
  op : Nat
  addr : Nat
  len : Nat
  deriving DecidableEq, Repr

/-- A batch assembled (11 R376): step, flags, entry bytes with their sequence, whether each ends it, quiet and release times. -/
structure Batch where
  step : Nat
  flags : Nat
  entries : List (Nat × Bool × List Byte)
  quiet : Nat
  /-- Until its boundary is released it is not sent. -/
  release : Option Nat := none
  deriving DecidableEq, Repr

/-- A spill or restore in progress of one sequence (11 R382): restore, the extents left as block and number, the tier and page that the first of them is
being copied to, and the next grain of that copy. -/
structure Move where
  seq : Nat
  restore : Bool
  left : List (Nat × Nat)
  dest : Option (Nat × Nat) := none
  grain : Nat := 0
  deriving DecidableEq, Repr

/-- A walk in progress (11 R383): sequence, next block, parent node, the generation check stamp. -/
structure Walk where
  seq : Nat
  block : Nat
  parent : Nat
  deriving DecidableEq, Repr

/-- Laurel. -/
structure Laurel where
  decl : Option Decl := none
  slots : SMap Slot := []
  /-- Saturations of the interval, the totals, the last interval, by class; disarmed classes. -/
  sat : SMap Nat := []
  satTotal : SMap Nat := []
  satLast : SMap Nat := []
  disarmed : List Nat := []
  mxClip : Nat := 0
  drifts : Nat := 0
  seqs : SMap Seq := []
  /-- Entries that have been taken and returned to FREE, oldest first, after those never taken (log 12). -/
  freed : List Nat := []
  /-- Entries never taken start here. -/
  fresh : Nat := 0
  kvdir : SMap Ext := []
  /-- Free directory entries and free pages are those not in use; lowest first (log 12). -/
  genCtr : Nat := 0
  /-- Index nodes in use. -/
  nodes : List Nat := []
  /-- Nodes built and not yet findable (R384): node and its bucket key. -/
  building : List (Nat × Nat) := []
  step : StepSt := {}
  /-- The exact rate r of R374 as a fraction. -/
  rateNum : Nat := 0
  rateDen : Nat := 1
  recv : SMap (List RecvBuf) := []
  batches : SMap (List Batch) := []
  serving : Nat := 0
  aborts : Nat := 0
  /-- Weight page awaited in repair wait: tier and page. -/
  waitPage : Option (Nat × Nat) := none
  /-- Entries, rows to replay. -/
  replayDue : Bool := false
  lastStepNs : Nat := 0
  cnt : SMap Nat := []
  narrow : Nat := 0
  walks : List Walk := []
  moves : List Move := []
  /-- The policy settings OD 0x6000 as of the last boundary, with the dictionary's keys (R389). -/
  policy : SMap Nat := []
  /-- A boundary of Laurel's own is wanted (R364). -/
  wantBoundary : Bool := false
  deriving DecidableEq, Repr

/-- On whose behalf Laurel's own blocks reach memory within a command, and what they have reached: partition and bucket, 64 bytes each (07 R237, R239). -/
structure Acct where
  part : Option Nat := none
  /-- What a command in hand works on, where it is not Laurel's own work (0): one more than the operation's or launch's number. -/
  who : Nat := 0
  owed : List (Nat × Nat) := []
  deriving DecidableEq, Repr

/-- The drain in progress and the boundary (04 R139 to R144). -/
structure Drain where
  active : Bool := false
  since : Nat := 0
  overdue : Bool := false
  /-- Operations that asked for it. -/
  ops : List Nat := []
  quiet : Bool := false
  /-- Step-quiet has been raised and the boundary's work is done: what remains is its release, which is held or waits for step-quiet (04 R143, R144). -/
  reached : Bool := false
  restarts : Nat := 0
  /-- The boundary is held by an image load, or by the march (10 R348, 15 R485). -/
  heldImage : Bool := false
  heldMarch : Bool := false
  deriving DecidableEq, Repr

end Sys2Proof.Machine
end

