-- ==== Sys2Proof/Machine/StateHost.lean ====
section
/-!
DEFINITION. The state of the host ports, queues, operations and stewardship (10 R316 to R354).
-/

namespace Sys2Proof.Machine

/-- A mailbox (10 R350). -/
structure Mbox where
  busy : Bool := false
  overrun : Bool := false
  status : Nat := 0
  rlength : Nat := 0
  data : ByteMap := []
  deriving DecidableEq, Repr

/-- A function of a port (10 R319, R324, R326). -/
structure Fn where
  event : Nat := 0
  eventEn : Nat := 0
  base : Nat := 0
  stewResult : Nat := 0
  qaResult : Nat := 0
  prResult : Nat := 0
  mbox : Mbox := {}
  /-- MSI-X table, each byte combined with its reset value (the mask bit of every vector set: PCIe's reset, log 18), and pending bits, by byte. -/
  msix : ByteMap := []
  pba : ByteMap := []
  /-- Assignment: first pool queue, count, partition. Kept through port reset. -/
  qBase : Nat := 0
  qCount : Nat := 0
  qPart : Nat := 0
  /-- Device Control 2: the completion timeout's value in bits 3:0, its disable in bit 4 (R318; PRESUMED, PCIe's layout and reset value, log 86). -/
  devCtl2 : Nat := 0
  /-- Device Control: largest payload and largest read request, from 128 bytes up (R316; PRESUMED, as before). -/
  mps : Nat := 0
  mrrs : Nat := 2
  /-- ASPM L1 enabled in Link Control; ECRC generation and checking enabled. -/
  aspm : Bool := false
  ecrcGen : Bool := false
  ecrcChk : Bool := false
  /-- The function is in D3hot, not D0. -/
  d3hot : Bool := false
  /-- MSI-X Enable and Function Mask (R339). -/
  msixEn : Bool := false
  msixMask : Bool := false
  /-- AER's uncorrectable error status, and its mask. -/
  aer : Nat := 0
  aerMask : Nat := 0
  /-- AER's severities of those errors, and its mask of correctable errors, of which none is modelled. -/
  aerSev : Nat := 0
  aerCorMask : Nat := 0
  /-- BARs of a PF, BAR0/1, BAR2/3, BAR4/5 and VF BAR0/1 (R319). -/
  bar0 : Nat := 0
  bar2 : Nat := 0
  bar4 : Nat := 0
  vfBar0 : Nat := 0
  deriving DecidableEq, Repr

/-- A read of host memory outstanding (10 R318, R330): what it is for. -/
inductive ReadFor where
  | fetch (queue : Nat) (count : Nat)
  | copy (op off len : Nat)
  | image (op off len : Nat)
  deriving DecidableEq, Repr

structure HostRead where
  id : Nat
  port : Bool
  fn : Nat
  addr : Nat
  len : Nat
  what : ReadFor
  sent : Nat
  deriving DecidableEq, Repr

/-- A host's read through the aperture (R321): its length, the pieces that have come back, by offset, and how many have not. -/
structure HostAcc where
  id : Nat
  len : Nat
  left : Nat
  got : List (Nat × Piece) := []
  deriving DecidableEq, Repr

/-- The choice of a port's queue selector (R330, 03 R104): the queue last granted, grants since the last starvation grant, and for how many grants each queue that asks
has waited. -/
structure Sel where
  last : Nat := 8191
  since : Nat := 0
  waits : SMap Nat := []
  deriving DecidableEq, Repr

/-- A host port. -/
structure Port where
  up : Bool := false
  rate : Nat := 0
  width : Nat := 0
  resets : Nat := 0
  /-- When the cause of its last reset has ended: it is ready to train 1 ms later (10 R352). -/
  causeEnd : Nat := 0
  /-- Time of the reset in progress, for R346. -/
  resetTs : Nat := 0
  wasReset : Bool := false
  /-- Settings taken at the last training (R317). -/
  trained : List Nat := []
  /-- VF Enable and NumVFs of the SR-IOV capability, and the VFs that they make exist (R319). -/
  vfEnable : Bool := false
  vfNum : Nat := 0
  numVfs : Nat := 0
  fns : SMap Fn := []
  reads : List HostAcc := []
  sel : Sel := {}
  deriving DecidableEq, Repr

/-- A queue pair (10 R327 to R339). -/
structure QPair where
  sqBase : Nat := 0
  cqBase : Nat := 0
  sqLog : Nat := 0
  cqLog : Nat := 0
  enable : Bool := false
  irqEn : Bool := false
  vec : Nat := 0
  holdoff : Nat := 0
  sqHead : Nat := 0
  cqTail : Nat := 0
  cqSeq : Nat := 0
  phase : Bool := true
  state : Nat := 0
  error : Nat := 0
  inFlight : Nat := 0
  tail : Nat := 0
  cqHead : Nat := 0
  /-- Record slots reserved or written and not freed. -/
  used : Nat := 0
  latched : Option Nat := none
  /-- Descriptors asked for and not yet here. -/
  fetching : Nat := 0
  lastMsg : Option Nat := none
  msgWaits : Bool := false
  deriving DecidableEq, Repr

/-- Where an operation stands. -/
inductive OpStage where
  | fetched | running | done
  deriving DecidableEq, Repr

/-- A piece of a tensor copy: packed offset, length, die address, and for a write the mask that leaves padding zero. -/
structure CPiece where
  off : Nat
  len : Nat
  addr : Nat
  mask : List Byte := []
  deriving DecidableEq, Repr

/-- An operation in flight (10 R331 to R338). -/
structure HostOp where
  id : Nat
  port : Bool
  fn : Nat
  queue : Nat
  part : Nat
  desc : List Byte
  stage : OpStage := .fetched
  steward : Bool := false
  status : Nat := 0
  fault : Nat := 0
  detail : Nat := 0
  bytes : Nat := 0
  zeroLen : Bool := false
  unchecked : Bool := false
  poisoned : Bool := false
  /-- Bytes of a copy in all, asked for so far, and not yet performed at their destination. -/
  total : Nat := 0
  sent : Nat := 0
  left : Nat := 0
  pieces : List CPiece := []
  /-- The image as far as it has been read. -/
  image : List Byte := []
  /-- OD 0x8000.01 and .02 as they stood when the image's header was read (17 R517). -/
  owner : Option (Bool × List Byte) := none
  /-- Its port has been reset: it writes no record. -/
  silent : Bool := false
  /-- Its place in the order in which operations have ended, and the timestamp then (R335, R337). -/
  rank : Nat := 0
  time : Nat := 0
  /-- It was fetched when a drain was released and had waited (04 R141). -/
  waited : Bool := false
  deriving DecidableEq, Repr

/-- Stewardship (10 R344 to R346). -/
structure Stew where
  port : Bool := false
  changes : Nat := 0
  deriving DecidableEq, Repr

/-- What leaves the module. -/
inductive Out where
  /-- A write to host memory: port, address, bytes, EP bit, and the Relaxed Ordering attribute, which is clear (09 R312). -/
  | hostWrite (port : Bool) (addr : Nat) (data : List Byte) (ep : Bool) (relaxed : Bool := false)
  | hostRead (port : Bool) (addr len : Nat)
  /-- A completion of a host's read: 0 successful, 1 Completer Abort, 2 Unsupported Request; data; EP. -/
  | completion (port : Bool) (status : Nat) (data : List Byte) (ep : Bool)
  /-- An MSI-X message of a function's vector. -/
  | msix (port : Bool) (fn vec : Nat)
  | hedgerow (up : Bool) (f : List Byte)
  /-- A Briar frame: port, and its 1,040 bytes (12 R397). -/
  | briar (port : Nat) (bytes : List Byte)
  deriving DecidableEq, Repr

end Sys2Proof.Machine
end

