-- ==== Sys2Proof/Machine/Od.lean ====
section
/-!
DEFINITION. The object dictionary's entries: type, access right, persistence class, default and range of each (13 R434 to R437,
R441 to R451 and the tables of the other chapters that R441 names).
-/

namespace Sys2Proof.Machine

/-- Entries of one kind: index and subindex ranges, type code (R435), access right (R436), class (R437: 0 Volatile, 1 Warm-kept,
2 Stored, 3 Const), length or maximum length in bytes, default, range, steward-only. -/
structure OdRow where
  i0 : Nat
  i1 : Nat
  s0 : Nat
  s1 : Nat
  ty : Nat
  right : Nat
  cls : Nat
  len : Nat
  dflt : Nat
  lo : Nat
  hi : Nat
  steward : Bool
  deriving DecidableEq, Repr

/-- Identity (13 R441 and the tables it names). -/
def odIdentity : List OdRow := [
  ⟨0x1000, 0x1000, 1, 1, 8, 3, 3, 256, 0, 0, 0, false⟩,
  ⟨0x1000, 0x1000, 2, 2, 8, 3, 3, 256, 0, 0, 0, false⟩,
  ⟨0x1000, 0x1000, 3, 3, 2, 3, 3, 2, 0xB0, 0, 0xFFFF, false⟩,
  ⟨0x1000, 0x1000, 4, 4, 8, 3, 3, 256, 0, 0, 0, false⟩,
  ⟨0x1000, 0x1000, 5, 5, 3, 3, 3, 4, 0, 0, 0xFFFFFFFF, false⟩,
  ⟨0x1000, 0x1000, 6, 6, 9, 3, 3, 256, 0, 0, 0, false⟩,
  ⟨0x1000, 0x1000, 7, 7, 4, 0, 0, 8, 0, 0, 0xFFFFFFFFFFFFFFFF, false⟩,
  ⟨0x1000, 0x1000, 8, 8, 1, 0, 0, 1, 0, 0, 0xFF, false⟩,
  ⟨0x1000, 0x1000, 9, 9, 3, 0, 2, 4, 0, 0, 0xFFFFFFFF, false⟩,
  ⟨0x1000, 0x1000, 0xA, 0xA, 1, 0, 0, 1, 0, 0, 0xFF, false⟩,
  ⟨0x1000, 0x1000, 0xB, 0xB, 3, 0, 2, 4, 0, 0, 0xFFFFFFFF, false⟩,
  ⟨0x1000, 0x1000, 0xC, 0xC, 4, 0, 2, 8, 0, 0, 0xFFFFFFFFFFFFFFFF, false⟩,
  ⟨0x1000, 0x1000, 0xF, 0xF, 3, 2, 0, 4, 0, 0xDEF0, 0xDEF0, true⟩]

/-- Hedgerow (13 R441 and the tables it names). -/
def odHedgerow : List OdRow := [
  ⟨0x1100, 0x1100, 1, 1, 1, 1, 2, 1, 1, 0, 1, false⟩,
  ⟨0x1100, 0x1100, 2, 2, 1, 1, 2, 1, 0, 0, 0x3F, false⟩,
  ⟨0x1100, 0x1100, 3, 3, 2, 0, 0, 2, 0, 0, 0xFFFF, false⟩,
  ⟨0x1100, 0x1100, 4, 4, 2, 1, 2, 2, 0xFFFF, 0, 0xFFFF, false⟩,
  ⟨0x1100, 0x1100, 5, 5, 1, 1, 2, 1, 1, 0, 1, false⟩,
  ⟨0x1100, 0x1100, 6, 6, 2, 1, 2, 2, 0xFFFF, 0, 0xFFFF, false⟩,
  ⟨0x1100, 0x1100, 7, 7, 1, 1, 2, 1, 1, 0, 3, false⟩,
  ⟨0x1100, 0x1100, 8, 8, 1, 1, 2, 1, 3, 0, 7, false⟩,
  ⟨0x1100, 0x1100, 9, 9, 2, 0, 0, 2, 0, 0, 0xFFFF, false⟩,
  ⟨0x1100, 0x1100, 0xA, 0xA, 1, 0, 0, 1, 0, 0, 0xFF, false⟩,
  ⟨0x1120, 0x1120, 1, 0x20, 3, 1, 2, 4, 0, 0, 0xFFFFFFFF, false⟩,
  ⟨0x1130, 0x1130, 1, 2, 4, 0, 0, 8, 0, 0, 0xFFFFFFFFFFFFFFFF, false⟩,
  ⟨0x1130, 0x1130, 3, 0xA, 3, 0, 0, 4, 0, 0, 0xFFFFFFFF, false⟩]

/-- Measurement (13 R441 and the tables it names). -/
def odMeasurement : List OdRow := [
  ⟨0x2000, 0x2000, 1, 0x18, 7, 0, 0, 4, 0, 0, 0xFFFFFFFF, false⟩,
  ⟨0x2000, 0x2000, 0x19, 0x19, 3, 0, 0, 4, 0, 0, 0xFFFFFFFF, false⟩,
  ⟨0x2000, 0x2000, 0x1A, 0x1A, 4, 0, 0, 8, 0, 0, 0xFFFFFFFFFFFFFFFF, false⟩,
  ⟨0x2000, 0x2000, 0x30, 0x31, 2, 0, 0, 2, 0, 0, 0xFFFF, false⟩,
  ⟨0x2001, 0x2001, 1, 0x18, 1, 0, 0, 1, 4, 0, 0xFF, false⟩,
  ⟨0x2010, 0x2015, 1, 3, 7, 0, 0, 4, 0, 0, 0xFFFFFFFF, false⟩,
  ⟨0x2020, 0x2020, 1, 2, 7, 0, 0, 4, 0, 0, 0xFFFFFFFF, false⟩]

/-- Thermal (13 R441 and the tables it names). -/
def odThermal : List OdRow := [
  ⟨0x2800, 0x2803, 1, 1, 7, 1, 2, 4, 0x5F0000, 0, 0x960000, false⟩,
  ⟨0x2800, 0x2803, 2, 2, 7, 1, 2, 4, 0x690000, 0, 0x960000, false⟩,
  ⟨0x2804, 0x280B, 1, 1, 7, 1, 2, 4, 0x550000, 0, 0x960000, false⟩,
  ⟨0x2804, 0x280B, 2, 2, 7, 1, 2, 4, 0x5F0000, 0, 0x960000, false⟩,
  ⟨0x280C, 0x280D, 1, 1, 7, 1, 2, 4, 0x5A0000, 0, 0x960000, false⟩,
  ⟨0x280C, 0x280D, 2, 2, 7, 1, 2, 4, 0x640000, 0, 0x960000, false⟩,
  ⟨0x280E, 0x280F, 1, 1, 7, 1, 2, 4, 0x690000, 0, 0x960000, false⟩,
  ⟨0x280E, 0x280F, 2, 2, 7, 1, 2, 4, 0x780000, 0, 0x960000, false⟩,
  ⟨0x2810, 0x2813, 1, 1, 7, 1, 2, 4, 0x460000, 0, 0x960000, false⟩,
  ⟨0x2810, 0x2813, 2, 2, 7, 1, 2, 4, 0x550000, 0, 0x960000, false⟩,
  ⟨0x2800, 0x2813, 3, 3, 1, 1, 2, 1, 1, 0, 1, false⟩,
  ⟨0x2820, 0x2820, 1, 1, 3, 1, 2, 4, 0xFA, 0, 0x2710, false⟩,
  ⟨0x2820, 0x2820, 2, 2, 7, 1, 2, 4, 0x28F, 0x148, 0x199A, false⟩,
  ⟨0x2820, 0x2820, 3, 3, 3, 1, 2, 4, 0x20, 0x20, 0x3E8, false⟩,
  ⟨0x2820, 0x2820, 4, 4, 1, 0, 0, 1, 0, 0, 0xFF, false⟩]

/-- Rails and fans (13 R441 and the tables it names). -/
def odRailsAndFans : List OdRow := [
  ⟨0x3000, 0x3000, 1, 1, 7, 1, 1, 4, 0xEB85, 0x999A, 0xEB85, false⟩,
  ⟨0x3000, 0x3000, 2, 3, 7, 0, 0, 4, 0, 0, 0xFFFFFFFF, false⟩,
  ⟨0x3000, 0x3000, 4, 5, 1, 0, 0, 1, 0, 0, 0xFF, false⟩,
  ⟨0x3800, 0x3801, 1, 1, 1, 1, 2, 1, 0, 0, 1, false⟩,
  ⟨0x3800, 0x3801, 2, 2, 1, 1, 2, 1, 0x64, 0x14, 0x64, false⟩,
  ⟨0x3800, 0x3801, 3, 3, 1, 1, 2, 1, 2, 1, 4, false⟩,
  ⟨0x3800, 0x3801, 4, 4, 2, 0, 0, 2, 0, 0, 0xFFFF, false⟩,
  ⟨0x3800, 0x3801, 5, 5, 1, 0, 0, 1, 0, 0, 0xFF, false⟩,
  ⟨0x3800, 0x3801, 6, 6, 2, 1, 2, 2, 0x258, 0, 0x4E20, false⟩,
  ⟨0x3800, 0x3801, 7, 7, 1, 0, 0, 1, 0, 0, 0xFF, false⟩,
  ⟨0x3810, 0x3810, 1, 1, 7, 1, 2, 4, 0x500000, 0x280000, 0x640000, false⟩]

/-- Host ports and Briar settings (13 R441 and the tables it names). -/
def odHostPortsAndBriarSettings : List OdRow := [
  ⟨0x4000, 0x4000, 1, 1, 1, 1, 2, 1, 0, 0, 1, false⟩,
  ⟨0x4000, 0x4000, 2, 2, 1, 1, 2, 1, 6, 1, 6, false⟩,
  ⟨0x4000, 0x4000, 3, 3, 1, 1, 2, 1, 8, 1, 8, false⟩,
  ⟨0x4000, 0x4000, 4, 4, 2, 1, 2, 2, 0xF, 0, 0xF, false⟩,
  ⟨0x4000, 0x4000, 6, 6, 1, 0, 0, 1, 0, 0, 0xFF, false⟩,
  ⟨0x4000, 0x4000, 7, 7, 3, 0, 0, 4, 0, 0, 0xFFFFFFFF, false⟩,
  ⟨0x4010, 0x4010, 1, 1, 1, 1, 2, 1, 0, 0, 1, false⟩,
  ⟨0x4010, 0x4010, 2, 2, 1, 1, 2, 1, 6, 1, 6, false⟩,
  ⟨0x4010, 0x4010, 3, 3, 1, 1, 2, 1, 8, 1, 8, false⟩,
  ⟨0x4010, 0x4010, 4, 4, 2, 1, 2, 2, 0xF, 0, 0xF, false⟩,
  ⟨0x4010, 0x4010, 6, 6, 1, 0, 0, 1, 0, 0, 0xFF, false⟩,
  ⟨0x4010, 0x4010, 7, 7, 3, 0, 0, 4, 0, 0, 0xFFFFFFFF, false⟩,
  ⟨0x4100, 0x4100, 1, 1, 1, 1, 2, 1, 1, 1, 2, false⟩,
  ⟨0x4100, 0x4100, 2, 2, 1, 0, 0, 1, 0, 0, 0xFF, false⟩,
  ⟨0x4100, 0x4100, 3, 3, 1, 1, 2, 1, 1, 0, 1, false⟩,
  ⟨0x4100, 0x4100, 4, 4, 3, 1, 2, 4, 0x3E8, 0xA, 0xEA60, false⟩,
  ⟨0x4100, 0x4100, 5, 5, 3, 0, 0, 4, 0, 0, 0xFFFFFFFF, false⟩,
  ⟨0x4200, 0x4200, 1, 1, 2, 0, 0, 2, 0, 0, 0xFFFF, false⟩,
  ⟨0x4200, 0x4200, 2, 2, 3, 0, 0, 4, 0, 0, 0xFFFFFFFF, false⟩,
  ⟨0x4800, 0x4800, 1, 1, 1, 1, 2, 1, 0, 0, 0x40, false⟩,
  ⟨0x4800, 0x4800, 2, 2, 1, 1, 2, 1, 1, 0, 1, false⟩,
  ⟨0x4800, 0x4800, 3, 3, 1, 1, 2, 1, 0, 0, 0x3F, false⟩,
  ⟨0x4800, 0x4800, 4, 4, 2, 1, 2, 2, 0, 0, 0xFFFF, false⟩,
  ⟨0x4800, 0x4800, 5, 5, 1, 0, 0, 1, 0, 0, 0xFF, false⟩,
  ⟨0x4800, 0x4800, 6, 6, 3, 1, 2, 4, 0x64, 0xA, 0x186A0, false⟩,
  ⟨0x4810, 0x4813, 1, 2, 1, 0, 0, 1, 0, 0, 0xFF, false⟩]

/-- Partitions, regulators, arbiters (13 R441 and the tables it names). -/
def odPartitionsRegulatorsArbiters : List OdRow := [
  ⟨0x5000, 0x5000, 1, 8, 1, 1, 1, 1, 1, 0, 2, false⟩,
  ⟨0x5000, 0x5000, 9, 0x10, 1, 1, 1, 1, 2, 0, 2, false⟩,
  ⟨0x5001, 0x5001, 1, 0x10, 2, 1, 1, 2, 0x1000, 1, 0x1000, false⟩,
  ⟨0x5080, 0x5080, 1, 5, 1, 1, 2, 1, 8, 4, 0x40, false⟩,
  ⟨0x5081, 0x5081, 1, 4, 1, 1, 1, 1, 0, 0, 3, false⟩,
  ⟨0x5200, 0x520F, 1, 1, 1, 1, 1, 1, 0, 0, 0xF, false⟩,
  ⟨0x5200, 0x520F, 2, 2, 3, 1, 1, 4, 0x1F4000, 0x3E8, 0x1F4000, false⟩,
  ⟨0x5200, 0x520F, 3, 3, 3, 1, 1, 4, 0x100, 4, 0x10000, false⟩,
  ⟨0x5200, 0x520F, 4, 4, 3, 1, 1, 4, 0x2EE000, 0x3E8, 0x2EE000, false⟩,
  ⟨0x5200, 0x520F, 5, 5, 3, 1, 1, 4, 0x100, 4, 0x10000, false⟩,
  ⟨0x5200, 0x520F, 6, 6, 3, 1, 1, 4, 0xBB800, 0x3E8, 0xBB800, false⟩,
  ⟨0x5200, 0x520F, 7, 7, 3, 1, 1, 4, 0x100, 4, 0x10000, false⟩,
  ⟨0x5200, 0x520F, 8, 8, 1, 1, 1, 1, 0, 0, 1, false⟩,
  ⟨0x5200, 0x520F, 9, 9, 3, 1, 1, 4, 0xFA00, 0x64, 0xFA00, false⟩,
  ⟨0x5200, 0x520F, 0xA, 0xA, 3, 1, 1, 4, 0x100, 4, 0x10000, false⟩,
  ⟨0x5200, 0x520F, 0xB, 0xB, 1, 1, 1, 1, 0, 0, 1, false⟩,
  ⟨0x5200, 0x520F, 0xC, 0xC, 3, 1, 1, 4, 0x61A80, 0x3E8, 0x61A80, false⟩,
  ⟨0x5200, 0x520F, 0xD, 0xD, 3, 1, 1, 4, 0x100, 4, 0x10000, false⟩]

/-- Serving policy and execution limits (13 R441 and the tables it names). -/
def odServingPolicyAndExecutionLimits : List OdRow := [
  ⟨0x6000, 0x6000, 1, 1, 2, 1, 2, 2, 0x100, 1, 0x100, false⟩,
  ⟨0x6000, 0x6000, 2, 2, 3, 1, 2, 4, 0x2000, 0x40, 0x10000, false⟩,
  ⟨0x6000, 0x6000, 3, 3, 1, 1, 2, 1, 7, 0, 7, false⟩,
  ⟨0x6000, 0x6000, 4, 4, 2, 1, 2, 2, 0x64, 0, 0x1F4, false⟩,
  ⟨0x6000, 0x6000, 5, 5, 3, 1, 2, 4, 0x3E8, 0, 0x927C0, false⟩,
  ⟨0x6000, 0x6000, 6, 6, 2, 1, 2, 2, 0x20, 0, 0x1000, false⟩,
  ⟨0x6000, 0x6000, 7, 7, 1, 1, 2, 1, 0, 0, 1, false⟩,
  ⟨0x6000, 0x6000, 8, 8, 1, 1, 2, 1, 2, 1, 8, false⟩,
  ⟨0x6000, 0x6000, 9, 9, 1, 1, 2, 1, 1, 0, 1, false⟩,
  ⟨0x6000, 0x6000, 0xA, 0xA, 1, 2, 0, 1, 0, 1, 1, true⟩,
  ⟨0x6040, 0x6040, 1, 1, 3, 1, 2, 4, 0xC350, 0x3E8, 0x989680, false⟩,
  ⟨0x6040, 0x6040, 2, 2, 3, 1, 2, 4, 0x4E20, 0x3E8, 0xF4240, false⟩,
  ⟨0x6040, 0x6040, 3, 3, 3, 1, 2, 4, 0x2710, 0x64, 0xF4240, false⟩,
  ⟨0x6050, 0x6050, 1, 1, 1, 1, 2, 1, 4, 1, 0x10, false⟩,
  ⟨0x6051, 0x6051, 1, 6, 3, 1, 2, 4, 0x1000, 1, 0xFFFFFFFF, false⟩,
  ⟨0x6100, 0x6100, 1, 1, 4, 0, 0, 8, 0, 0, 0xFFFFFFFFFFFFFFFF, false⟩,
  ⟨0x6100, 0x6100, 2, 2, 1, 0, 0, 1, 0, 0, 0xFF, false⟩,
  ⟨0x6100, 0x6100, 3, 3, 2, 0, 0, 2, 0, 0, 0xFFFF, false⟩,
  ⟨0x6100, 0x6100, 4, 5, 3, 0, 0, 4, 0, 0, 0xFFFFFFFF, false⟩,
  ⟨0x6100, 0x6100, 6, 6, 4, 0, 0, 8, 0, 0, 0xFFFFFFFFFFFFFFFF, false⟩,
  ⟨0x6100, 0x6100, 7, 9, 3, 0, 0, 4, 0, 0, 0xFFFFFFFF, false⟩]

/-- Counters (13 R441 and the tables it names). -/
def odCounters : List OdRow := [
  ⟨0x7010, 0x7010, 1, 1, 3, 0, 0, 4, 0, 0, 0xFFFFFFFF, false⟩,
  ⟨0x7020, 0x7039, 1, 1, 3, 0, 0, 4, 0, 0, 0xFFFFFFFF, false⟩,
  ⟨0x7040, 0x7040, 1, 0xB, 4, 0, 0, 8, 0, 0, 0xFFFFFFFFFFFFFFFF, false⟩,
  ⟨0x7041, 0x7041, 1, 5, 4, 0, 0, 8, 0, 0, 0xFFFFFFFFFFFFFFFF, false⟩,
  ⟨0x7042, 0x7042, 1, 1, 4, 0, 0, 8, 0, 0, 0xFFFFFFFFFFFFFFFF, false⟩,
  ⟨0x7042, 0x7042, 2, 4, 3, 0, 0, 4, 0, 0, 0xFFFFFFFF, false⟩,
  ⟨0x7100, 0x7100, 1, 7, 4, 0, 0, 8, 0, 0, 0xFFFFFFFFFFFFFFFF, false⟩,
  ⟨0x7101, 0x7101, 1, 6, 3, 0, 0, 4, 0, 0, 0xFFFFFFFF, false⟩,
  ⟨0x7102, 0x7102, 1, 1, 3, 0, 0, 4, 0, 0, 0xFFFFFFFF, false⟩,
  ⟨0x7200, 0x7207, 1, 1, 4, 0, 0, 8, 0, 0, 0xFFFFFFFFFFFFFFFF, false⟩,
  ⟨0x7200, 0x7207, 2, 5, 3, 0, 0, 4, 0, 0, 0xFFFFFFFF, false⟩,
  ⟨0x7200, 0x7207, 6, 6, 2, 0, 0, 2, 0, 0, 0xFFFF, false⟩,
  ⟨0x7200, 0x7207, 7, 0xA, 3, 0, 0, 4, 0, 0, 0xFFFFFFFF, false⟩,
  ⟨0x7200, 0x7207, 0xB, 0xB, 4, 0, 0, 8, 0, 0, 0xFFFFFFFFFFFFFFFF, false⟩,
  ⟨0x7200, 0x7207, 0xC, 0xD, 3, 0, 0, 4, 0, 0, 0xFFFFFFFF, false⟩,
  ⟨0x7200, 0x7207, 0xE, 0xE, 4, 0, 0, 8, 0, 0, 0xFFFFFFFFFFFFFFFF, false⟩,
  ⟨0x7200, 0x7207, 0xF, 0xF, 3, 0, 0, 4, 0, 0, 0xFFFFFFFF, false⟩,
  ⟨0x7208, 0x7208, 1, 1, 4, 0, 0, 8, 0, 0, 0xFFFFFFFFFFFFFFFF, false⟩,
  ⟨0x7208, 0x7208, 2, 2, 3, 0, 0, 4, 0, 0, 0xFFFFFFFF, false⟩,
  ⟨0x7208, 0x7208, 3, 4, 4, 0, 0, 8, 0, 0, 0xFFFFFFFFFFFFFFFF, false⟩,
  ⟨0x7208, 0x7208, 5, 5, 2, 0, 0, 2, 0, 0, 0xFFFF, false⟩,
  ⟨0x7209, 0x7209, 1, 1, 3, 0, 0, 4, 0, 0, 0xFFFFFFFF, false⟩,
  ⟨0x7210, 0x721F, 1, 5, 4, 0, 0, 8, 0, 0, 0xFFFFFFFFFFFFFFFF, false⟩,
  ⟨0x7300, 0x7300, 1, 2, 3, 0, 0, 4, 0, 0, 0xFFFFFFFF, false⟩,
  ⟨0x7400, 0x7400, 1, 0x12, 4, 0, 0, 8, 0, 0, 0xFFFFFFFFFFFFFFFF, false⟩,
  ⟨0x7500, 0x7503, 1, 3, 4, 0, 0, 8, 0, 0, 0xFFFFFFFFFFFFFFFF, false⟩,
  ⟨0x7500, 0x7503, 4, 8, 3, 0, 0, 4, 0, 0, 0xFFFFFFFF, false⟩,
  ⟨0x7504, 0x7504, 1, 5, 3, 0, 0, 4, 0, 0, 0xFFFFFFFF, false⟩,
  ⟨0x7504, 0x7504, 6, 6, 4, 0, 0, 8, 0, 0, 0xFFFFFFFFFFFFFFFF, false⟩]

/-- Event log (13 R441 and the tables it names). -/
def odEventLog : List OdRow := [
  ⟨0x7800, 0x7800, 1, 1, 2, 0, 0, 2, 0, 0, 0xFFFF, false⟩,
  ⟨0x7800, 0x7800, 2, 3, 3, 0, 0, 4, 0, 0, 0xFFFFFFFF, false⟩,
  ⟨0x7800, 0x7800, 4, 4, 3, 1, 0, 4, 0, 0, 0xFFFFFFFF, false⟩,
  ⟨0x7800, 0x7800, 5, 5, 10, 0, 0, 64, 0, 0, 0, false⟩,
  ⟨0x7800, 0x7800, 6, 6, 3, 0, 0, 4, 0, 0, 0xFFFFFFFF, false⟩,
  ⟨0x7801, 0x7801, 1, 1, 4, 1, 1, 8, 0, 0, 0xFFFFFFFFFFFFFFFF, false⟩,
  ⟨0x7801, 0x7801, 2, 2, 2, 1, 1, 2, 0x1000, 0x40, 0xFFFF, false⟩,
  ⟨0x7801, 0x7801, 3, 3, 4, 0, 0, 8, 0, 0, 0xFFFFFFFFFFFFFFFF, false⟩,
  ⟨0x7801, 0x7801, 4, 4, 3, 0, 0, 4, 0, 0, 0xFFFFFFFF, false⟩]

/-- Security (13 R441 and the tables it names). -/
def odSecurity : List OdRow := [
  ⟨0x8000, 0x8000, 1, 1, 1, 1, 2, 1, 0, 0, 1, true⟩,
  ⟨0x8000, 0x8000, 2, 2, 9, 1, 2, 64, 0, 0, 0, false⟩,
  ⟨0x8000, 0x8000, 3, 3, 3, 0, 0, 4, 0, 0, 0xFFFFFFFF, false⟩,
  ⟨0x8010, 0x8010, 1, 1, 3, 3, 3, 4, 0, 0, 0xFFFFFFFF, false⟩,
  ⟨0x8010, 0x8010, 2, 0xFF, 9, 3, 3, 256, 0, 0, 0, false⟩,
  ⟨0x8020, 0x8020, 1, 1, 9, 2, 0, 64, 0, 0, 0, false⟩,
  ⟨0x8020, 0x8020, 2, 2, 1, 0, 0, 1, 0, 0, 0xFF, false⟩,
  ⟨0x8020, 0x8020, 3, 3, 3, 0, 0, 4, 0, 0, 0xFFFFFFFF, false⟩,
  ⟨0x8021, 0x8021, 1, 0xFF, 9, 0, 0, 256, 0, 0, 0, false⟩]

/-- Self-test and repair (13 R441 and the tables it names). -/
def odSelfTest : List OdRow := [
  ⟨0x9000, 0x9000, 1, 1, 1, 2, 0, 1, 0, 1, 3, true⟩,
  ⟨0x9000, 0x9000, 2, 2, 1, 0, 0, 1, 0, 0, 0xFF, false⟩,
  ⟨0x9000, 0x9000, 3, 3, 3, 0, 0, 4, 0, 0, 0xFFFFFFFF, false⟩,
  ⟨0x9000, 0x9000, 4, 5, 2, 0, 0, 2, 0, 0, 0xFFFF, false⟩,
  ⟨0x9010, 0x9010, 1, 1, 1, 1, 2, 1, 1, 0, 1, false⟩,
  ⟨0x9010, 0x9010, 2, 2, 1, 0, 0, 1, 0, 0, 0xFF, false⟩,
  ⟨0x9010, 0x9010, 3, 3, 3, 0, 0, 4, 0, 0, 0xFFFFFFFF, false⟩,
  ⟨0x9010, 0x9010, 4, 4, 2, 0, 0, 2, 0, 0, 0xFFFF, false⟩,
  ⟨0x9200, 0x9200, 1, 1, 1, 1, 2, 1, 0x10, 1, 0xFF, false⟩,
  ⟨0x9200, 0x9200, 2, 2, 2, 1, 2, 2, 0x18, 1, 0xA8, false⟩,
  ⟨0x9201, 0x9201, 1, 0x10, 3, 1, 2, 4, 0, 0, 0xFFFFFFFF, false⟩]

/-- The whole dictionary. -/
def odTable : List OdRow :=
  odIdentity ++ odHedgerow ++ odMeasurement ++ odThermal ++ odRailsAndFans ++ odHostPortsAndBriarSettings ++ odPartitionsRegulatorsArbiters ++ odServingPolicyAndExecutionLimits ++ odCounters ++ odEventLog ++ odSecurity ++ odSelfTest

/-- The row of an entry; none where the index or subindex is not in use (13 R434). Subindex 0 is not listed. -/
def odRow (i s : Nat) : Option OdRow :=
  odTable.find? fun r => decide (r.i0 ≤ i) && decide (i ≤ r.i1) && decide (r.s0 ≤ s) && decide (s ≤ r.s1)

/-- Highest subindex of an index; none where the index is not in use (13 R434). -/
def odTop (i : Nat) : Option Nat :=
  (odTable.filter fun r => decide (r.i0 ≤ i) && decide (i ≤ r.i1)).foldl
    (fun m r => some (match m with | none => r.s1 | some x => max x r.s1)) none

/-- Key of an entry in the map of settings. -/
def odKey (i s : Nat) : Nat := 256 * i + s

/-- Default of an entry (13 R436: zero where none is stated). -/
def odDefault (i s : Nat) : Nat := match odRow i s with | some r => r.dflt | none => 0

/-- Does a value lie in an entry's range (13 R436), the ranges with gaps included (13 R443; 10 R317; 12 R391)? -/
def odInRange (r : OdRow) (i s v : Nat) : Bool :=
  if i = 0x1100 ∧ (s = 4 ∨ s = 6) then decide (0x40 ≤ v ∧ v ≤ 0x4F) || v == 0xFFFF
  else if (i = 0x4000 ∨ i = 0x4010) ∧ s = 3 then v == 1 || v == 2 || v == 4 || v == 8
  else if i = 0x4800 ∧ s = 1 then v == 0 || decide (2 ≤ v ∧ v ≤ 64)
  else decide (r.lo ≤ v) && decide (v ≤ r.hi)

/-- A setting's value in a map of the entries that are not at their default. -/
def odValue (m : SMap Nat) (i s : Nat) : Nat := SMap.get (odDefault i s) m (odKey i s)

/-- Set an entry. -/
def odStore (m : SMap Nat) (i s v : Nat) : SMap Nat := SMap.set (odDefault i s) m (odKey i s) v

end Sys2Proof.Machine
end

