-- ==== Sys2Proof/Machine/StateIsland.lean ====
section
/-!
DEFINITION. The state of the always-on island: power and start control (01, 16), measurement and thermal control (14), the event
log (15 R487 to R492), Hedgerow (13 R417 to R433), the dictionary's requests, march and attestation.
-/

namespace Sys2Proof.Machine

/-- Where the module stands in its life (16 R499 to R503, 14 R466). -/
inductive Phase where
  | off | inReset
  /-- Released from reset: a cold or a warm start is due. -/
  | cold | warm
  | ready | stopped | slumber
  deriving DecidableEq, Repr

/-- Power, pins and start control. -/
structure Power where
  on : Bool := true
  /-- Off by over-voltage: the input has not yet fallen to 57.0 V (01 R16). -/
  ovLock : Bool := false
  pwrPresOpen : Bool := false
  modReset : Bool := false
  phase : Phase := .ready
  /-- Ready has been reached since the last cold start (01 R26); the next start is cold whatever else holds. -/
  readyOnce : Bool := true
  coldNext : Bool := false
  slotId : Nat := 0
  /-- READY_N and OVERTEMP_N are driven low (01 R22, R23); the by-pass is open (R38); the PWM outputs are released (R36). -/
  readyN : Bool := true
  overtempN : Bool := false
  bypassOpen : Bool := true
  pwmReleased : Bool := true
  perst : List Bool := [false, false]
  /-- Rails commanded on (14 R457, R466). -/
  coreRail : Bool := true
  stackRail : Bool := true
  dramRail : Bool := true
  boardRail : Bool := true
  /-- The mesh is unpowered, and the island isolated (03 R110). -/
  isolated : Bool := false
  selfRefresh : Bool := false
  fromSlumber : Bool := false
  /-- The reset-cause latch (15 R491), with the rail of cause 4. -/
  causeLatch : Nat := 0
  causeRail : Nat := 0
  lastKind : Nat := 1
  coldStarts : Nat := 1
  warmStarts : Nat := 0
  startStep : Nat := 0
  startDur : Nat := 1800000
  startFail : Nat := 0
  pstate : Nat := 1
  /-- When work was last in the device (8), and when a unit of stack k was last not idle (k), since the start (14 R466, R467). -/
  busyAt : SMap Nat := []
  /-- OD 0x1000.0C; the start counter's increment is itself such a write. -/
  paramWrites : Nat := 1
  defaultsAtStart : Bool := false
  deriving DecidableEq, Repr

/-- One housekeeping channel (14 R452 to R460). -/
structure Chan where
  raw : Nat := 0
  rawStatus : Nat := 4
  reading : Nat := 0
  status : Nat := 4
  /-- Successive rounds with status 2 or 3, and with status 0. -/
  bad : Nat := 0
  good : Nat := 0
  faulty : Bool := false
  deriving DecidableEq, Repr

/-- One fan (13 R447, 14 R468, R469). -/
structure Fan where
  speed : Nat := 0
  duty : Nat := 100
  fault : Bool := false
  low : Nat := 0
  good : Nat := 0
  deriving DecidableEq, Repr

/-- Measurement and thermal control. -/
structure Hk where
  chans : SMap Chan := []
  slot : Nat := 0
  rounds : Nat := 0
  roundTs : Nat := 0
  /-- When the round in progress began, and the tiles' beat counters as they stood then (02 R56; 14 R452). -/
  roundAt : Nat := 1800000000
  beatMarks : SMap Nat := []
  rails : SMap Nat := []
  inPower : Nat := 0
  maxPower : Nat := 0
  beatMean : Nat := 0
  beatSlow : Nat := 0
  thermal : Nat := 0
  warnTs : Nat := 0
  stepTs : Nat := 0
  ceil : Option Nat := none
  coolRounds : Nat := 0
  fans : SMap Fan := []
  fanControl : Bool := false
  /-- Channels that take no part, as their settings stood at the end of the last round (14 R460). -/
  left : List Nat := []
  /-- The automatic duty (14 R468). -/
  duty : Nat := 100
  deriving DecidableEq, Repr

/-- Measurement when a cold start has run to Ready (log 4): 56 rounds of 32 ms have ended within its 1,800 ms; every temperature has read 25.0 °C, the input 54 V and the
always-on rail 3.3 V, and the automatic duty has come down to its least (14 R453, R457, R468). -/
def Hk.atReady : Hk :=
  let c (v : Nat) : Chan := { raw := v, rawStatus := 0, reading := v, status := 0, good := 2 }
  { chans := (List.range 20).map (fun n => (n, c 0x190000)) ++ [(20, { c 0x360000 with good := 0 }), (21, { c 0x34CCC with good := 0 }), (22, { c 0 with good := 0 }), (23, { c 0 with good := 0 })]
    rounds := 56, roundTs := 1792000000, roundAt := 1792000000, rails := [(1, 0x360000), (21, 0x34CCC)]
    fanControl := true, duty := 20, fans := [(0, { speed := 3000, duty := 20, good := 3 }), (1, { speed := 3000, duty := 20, good := 3 })] }

/-- A record of the event log (15 R488), with its read mark. -/
structure LogRec where
  seq : Nat
  ev : Ev
  sev : Nat
  read : Bool
  /-- Found damaged (15 R478). -/
  damaged : Bool := false
  deriving DecidableEq, Repr

/-- The event log and its intake (15 R487 to R492). -/
structure Log where
  intake : List Ev := []
  records : List LogRec := []
  seq : Nat := 0
  overwritten : Nat := 0
  readSel : Nat := 0
  lost : Nat := 0
  spilled : Nat := 0
  refused : Nat := 0
  spillNext : Nat := 0
  deriving DecidableEq, Repr

/-- A notice (13 R432): log sequence, severity, record bytes, tries sent, when last sent. -/
structure Notice where
  seq : Nat
  sev : Nat
  bytes : List Byte
  tries : Nat := 0
  sent : Nat := 0
  frameSeq : Nat := 0
  deriving DecidableEq, Repr

/-- What Hedgerow carries as one frame (13 R419), its header fields and payload. -/
structure HFrame where
  da : Nat
  sa : Nat
  etherType : Nat := 0x88B5
  version : Nat := 1
  service : Nat
  up : Bool
  try_ : Nat
  hops : Nat
  dst : Nat
  src : Nat
  seq : Nat
  payload : List Byte
  deriving DecidableEq, Repr

/-- A request that waits for the dictionary (10 R350, 13 R426). A mailbox's is no longer `live` once its function has been reset: it is served, and
nothing is returned (10 R352). -/
inductive DictReq where
  | mailbox (port : PortId) (fn : FnId) (live write : Bool) (index sub : Nat) (data : List Byte)
  /-- Service 4 stands for a WRITE_REQ that was refused on arrival (13 R427): its turn brings its refusal. -/
  | hedgerow (src seq service index sub : Nat) (data : List Byte)
  deriving DecidableEq, Repr

/-- What leaves by one pair of Hedgerow (13 R424): when the frame in hand will have left; the transit buffer's frames and this module's own that wait, oldest first;
and whether the last to begin was this module's own. -/
structure HrLine where
  free : Nat := 0
  transit : List (List Byte) := []
  own : List (List Byte) := []
  lastOwn : Bool := false
  deriving DecidableEq, Repr

/-- Hedgerow (13 R417 to R433, R443). -/
structure Hr where
  addr : Nat := 0
  conflict : Bool := false
  inUp : Bool := false
  outUp : Bool := false
  sweepCtr : Nat := 180
  /-- When the last sweep fell due. -/
  sweepAt : Nat := 1800000000
  /-- OD 0x1130.01 to .0A. -/
  cnt : SMap Nat := [(8, 180)]
  seen : List (Nat × Nat × Nat) := []
  /-- Frames accepted whose service has not been acted on, oldest first. -/
  inbox : List HFrame := []
  /-- For each controller address: SEQ of the last request performed, and the service and payload of its response (R428). -/
  kept : List (Nat × Nat × Nat × List Byte) := []
  notices : List Notice := []
  awaiting : List Notice := []
  seqOut : Nat := 0
  /-- The two directions, downstream by HR_OUT and upstream by HR_IN. -/
  lineDown : HrLine := {}
  lineUp : HrLine := {}
  deriving DecidableEq, Repr

/-- A Stored write that waits for the parameter memory (13 R438): the entry, its value, and who is answered. -/
structure StoredWrite where
  index : Nat
  sub : Nat
  value : List Byte
  req : DictReq
  deriving DecidableEq, Repr

/-- The march engine (15 R484 to R486, 13 R451). -/
structure March where
  requested : Nat := 0
  running : Nat := 0
  began : Nat := 0
  result : Nat := 0
  columns : Nat := 0
  soft : Nat := 0
  fused : Nat := 0
  deriving DecidableEq, Repr

/-- The resident model (10 R348, 17 R510). -/
structure Model where
  id : Nat
  header : List Byte
  signed : Bool
  deriving DecidableEq, Repr

/-- Jasper reports (17 R511 to R513). -/
structure Report where
  state : Nat := 0
  nonce : List Byte := []
  bytes : List Byte := []
  deriving DecidableEq, Repr

/-- The module totals of 15 R493 and the counts of memories that have no counter of their own. -/
structure Totals where
  /-- OD 0x7040.01 to .0B and 0x7041.01 to .05, by tile offset. -/
  tile : SMap Nat := []
  corr : Nat := 0
  uncorr : Nat := 0
  meshLost : Nat := 0
  parity : Nat := 0
  deriving DecidableEq, Repr

end Sys2Proof.Machine
end

