-- ==== Sys2Proof/Machine/State.lean ====
section
/-!
DEFINITION. The state of the whole module, the reasons a step can stop, and the state after reset.
-/

namespace Sys2Proof.Machine

/-- Why the block stops with a fault. -/
inductive Fault where
  /-- Raised by nothing: the manual gives every command an effect, and every error is an effect on the state (15 R471). Safe. -/
  | none_
  deriving DecidableEq, Repr

/-- Why a command has no meaning. -/
inductive Refusal where
  /-- Raised by the arms of `exec` that are not modelled yet; safe: nothing is claimed of them. -/
  | notModelled (mnemonic : String)
  deriving DecidableEq, Repr

/-- The state of the module. The fields are grouped as in INVENTORY.md. -/
structure State where
  /-- Commands that wait, first in first out. -/
  pending : List Instr := []
  /-- The 64-bit timestamp in ns, a multiple of 40 (02 R60). -/
  ts : Nat := 1800000000
  /-- Draws of free values made so far (log 3): the model's own. -/
  free : Nat := 0
  /-- What has left the module, newest first (log 6). -/
  outbox : List Out := []
  txns : List Txn := []
  nextId : Nat := 0
  power : Power := {}
  hk : Hk := {}
  od : SMap Nat := []
  /-- Long dictionary values: the owner-key hash (13 R450). -/
  ownerKey : List Byte := List.replicate 64 0#8
  /-- Values of entries held elsewhere on the die, as captured when the mesh lost its power (03 R110, 13 R523). -/
  captured : SMap Nat := []
  dictQ : List DictReq := []
  /-- Stored writes served and not yet held by the parameter memory, oldest first (13 R438, R439). -/
  stored : List StoredWrite := []
  log : Log := {}
  hr : Hr := {}
  tiles : SMap Tile := []
  /-- Release tags at each tile's remote port (09 R304), oldest written first. -/
  tileTags : SMap (List (Nat × RelTag)) := []
  hedges : SMap Hedge := []
  launches : List Launch := []
  launchPkts : List LaunchPkt := []
  notices : List EndNotice := []
  folds : List (Nat × Nat) := []
  tiers : SMap Tier := []
  units : SMap PUnit := []
  /-- Fault notices of Privet units on their way to Laurel (08 R251): unit, status, tag, partition. -/
  unitNotices : List (Nat × Nat × Nat × Nat) := []
  laurel : Laurel := {}
  drain : Drain := {}
  ports : SMap Port := []
  queues : SMap QPair := []
  hostReads : List HostRead := []
  ops : List HostOp := []
  stew : Stew := {}
  /-- Partitions whose reset is in progress, and by which function it was asked: 16 × port + function (10 R342). -/
  resetting : List (Nat × Nat) := []
  /-- The arbiter between the ports for free in-flight places: requester 0 port A, 1 port B (10 R338). -/
  places : Arb := {}
  /-- Tokens of the regulators, in 1/25 byte, by 64 × partition + bucket (07 R238). -/
  buckets : SMap Int := []
  /-- The regulators' settings as of the last refill, with the dictionary's keys (07 R240). -/
  regNow : SMap Nat := []
  /-- Granted and borrowed bytes and waits by partition: OD (0x7210 + p).01 to .05, and the link ones of 12 R413. -/
  partCnt : SMap Nat := []
  /-- Module counters that have no other home, by OD key: 0x7209.01, 0x7300.01, .02, 0x4200.02. -/
  modCnt : SMap Nat := []
  arbs : SMap Arb := []
  briar : Briar := {}
  march : March := {}
  totals : Totals := {}
  report : Report := {}
  model : Option Model := none
  /-- Images refused for their signature (13 R450). -/
  sigRefused : Nat := 0
  /-- Within a command: an access has met the page being converted, and the command waits (07 R221). Never set between commands. -/
  blocked : Bool := false
  /-- Within a command: the accesses of Laurel's own blocks that its end charges (log 98). Empty between commands. -/
  acct : Acct := {}
  /-- Scratchpad accesses performed for commands that still wait for others (03 R94, log 110). -/
  portGot : List PortAcc := []
  /-- Within a command: the scratchpad access that it waits for. Never set between commands. -/
  portWant : Option PortAcc := none
  keyReady : Bool := true
  deriving DecidableEq, Repr

/-- The module right after reset: at Ready after the first cold start of a new part (16 R499, R505; log 4). Fields stand at their defaults above;
the first record of the log is START, of a cold start with cause 0 (15 R491). -/
def State.reset : State :=
  { hk := Hk.atReady
    power := { pwmReleased := false }
    log := { records := [⟨1, { code := 0x01, source := 0x90, args := [1, 0, 0], time := 0, step := 0 }, 0, false, false⟩], seq := 1 } }

end Sys2Proof.Machine
end

