-- ==== Sys2Proof/Machine/Ops.lean ====
section
/-!
DEFINITION. The named operations over the state that the commands share: places, dictionary settings, events, function events and
MSI-X messages, accesses in flight, the work of a tile and of a tier, the ends that faults and resets bring to kernels, units and steps.
-/

namespace Sys2Proof.Machine

/-! ## Outcomes -/

/-- A command that neither starts the module nor moves its clock: what waits in the queue and the timestamp are as they were (log 4). -/
def State.still (s s' : State) : Host.Outcome State Fault Refusal := .next { s' with pending := s.pending, ts := s.ts }

/-- As `served`, for the completion of a Stored write, which may set the fans' duties (13 R447). -/
def State.fanned (s s' : State) : Host.Outcome State Fault Refusal :=
  .next { s' with
    pending := s.pending, ts := s.ts, hk := { s.hk with fans := s'.hk.fans }
    power := { s.power with paramWrites := s'.power.paramWrites, defaultsAtStart := s'.power.defaultsAtStart } }

/-- As `still`, for the host ports' pins. -/
def State.ported (s s' : State) : Host.Outcome State Fault Refusal :=
  .next { s' with pending := s.pending, ts := s.ts, hk := s.hk, power := { s.power with perst := s'.power.perst } }

/-- As `still`, for a change of the power state alone (14 R466). -/
def State.rested (s s' : State) : Host.Outcome State Fault Refusal :=
  .next { s' with pending := s.pending, ts := s.ts, hk := s.hk, power := { s.power with pstate := s'.power.pstate } }

/-- Commands that move the clock. -/
def State.timed (s s' : State) : Host.Outcome State Fault Refusal := .next { s' with pending := s.pending }

/-! ## Places -/

def State.tile (s : State) (t : Nat) : Tile := SMap.get {} s.tiles t
def State.setTile (s : State) (t : Nat) (x : Tile) : State := { s with tiles := SMap.set {} s.tiles t x }
def State.modTile (s : State) (t : Nat) (f : Tile → Tile) : State := s.setTile t (f (s.tile t))

/-- A tier after a cold start (16 R505): the board tier's contents are undefined. -/
def tierReset (k : Nat) : Tier := if k = 8 then { fillBase := 1 } else {}

def State.tier (s : State) (k : Nat) : Tier := SMap.get (tierReset k) s.tiers k
def State.setTier (s : State) (k : Nat) (x : Tier) : State := { s with tiers := SMap.set (tierReset k) s.tiers k x }

def State.unit (s : State) (u : Nat) : PUnit := SMap.get {} s.units u
def State.setUnit (s : State) (u : Nat) (x : PUnit) : State := { s with units := SMap.set {} s.units u x }
def State.modUnit (s : State) (u : Nat) (f : PUnit → PUnit) : State := s.setUnit u (f (s.unit u))

def State.hedge (s : State) (h : Nat) : Hedge := SMap.get {} s.hedges h
def State.setHedge (s : State) (h : Nat) (x : Hedge) : State := { s with hedges := SMap.set {} s.hedges h x }

def State.port (s : State) (p : PortId) : Port := SMap.get {} s.ports (b2n p)
def State.setPort (s : State) (p : PortId) (x : Port) : State := { s with ports := SMap.set {} s.ports (b2n p) x }
def State.modPort (s : State) (p : PortId) (f : Port → Port) : State := s.setPort p (f (s.port p))

def State.fn (s : State) (p : PortId) (f : Nat) : Fn := SMap.get {} (s.port p).fns f
def State.setFn (s : State) (p : PortId) (f : Nat) (x : Fn) : State :=
  s.modPort p fun q => { q with fns := SMap.set {} q.fns f x }
def State.modFn (s : State) (p : PortId) (f : Nat) (g : Fn → Fn) : State := s.setFn p f (g (s.fn p f))

def State.queue (s : State) (q : Nat) : QPair := SMap.get {} s.queues q
def State.setQueue (s : State) (q : Nat) (x : QPair) : State := { s with queues := SMap.set {} s.queues q x }
def State.modQueue (s : State) (q : Nat) (f : QPair → QPair) : State := s.setQueue q (f (s.queue q))

def State.op? (s : State) (id : Nat) : Option HostOp := s.ops.find? (·.id == id)

/-- A timestamp as a reader of the fabric captures it: 80 ns to 120 ns old, two or three oscillator cycles, since every timestamp is a multiple of 40
(02 R60, R61; log 94). -/
def State.fabricTs (s : State) (reader : Nat) : Nat := s.ts - (80 + 40 * min 1 (Config.tsAge s.ts reader))

/-- An operation that ends takes its place behind those that have, and the time (10 R335, R337). -/
def State.stamp (s : State) (old new : HostOp) : HostOp :=
  if new.stage == .done && old.stage != .done then
    { new with rank := (s.ops.map (·.rank)).foldl max 0 + 1, time := s.fabricTs (0x8A + b2n new.port) }
  else new

def State.modOp (s : State) (id : Nat) (f : HostOp → HostOp) : State :=
  { s with ops := s.ops.map fun o => if o.id = id then s.stamp o (f o) else o }

def State.seq (s : State) (q : Nat) : Seq := SMap.get {} s.laurel.seqs q
def State.setSeq (s : State) (q : Nat) (x : Seq) : State :=
  { s with laurel := { s.laurel with seqs := SMap.set {} s.laurel.seqs q x } }
def State.modSeq (s : State) (q : Nat) (f : Seq → Seq) : State := s.setSeq q (f (s.seq q))

/-- Sequences that are not FREE (11 R362), in index order. -/
def State.liveSeqs (s : State) : List Nat := s.laurel.seqs.keys.filter fun q => (s.seq q).state != 0

/-- A dictionary setting in force. -/
def State.odv (s : State) (i sub : Nat) : Nat := odValue s.od i sub

/-- An entry's value without its Reserved bits, which read zero and take no write (00 R9): only the hard-repair list has any (07 R234). -/
def odField (i v : Nat) : Nat := if i = 0x9201 then v &&& 0x8FFFFFFF else v

/-- An entry's value as served: the last Stored write served, or what is in force (13 R439). A setting whose description names the moment of its effect takes this value
there; any other one takes effect once its write is complete (`State.odv`). -/
def State.odNow (s : State) (i sub : Nat) : Nat :=
  match (s.stored.filter fun w => w.index == i && w.sub == sub).getLast? with
  | some w => odField i (leNat w.value)
  | none => s.odv i sub

/-- The parameter memory is written (13 R442 OD 0x1000.0C). -/
def State.wroteParam (s : State) : State := { s with power := { s.power with paramWrites := add64 s.power.paramWrites 1 } }

/-- The owner key hash as served. -/
def State.ownerNow (s : State) : List Byte :=
  match (s.stored.filter fun w => w.index == 0x8000 && w.sub == 2).getLast? with
  | some w => w.value
  | none => s.ownerKey

/-- Count in a module counter kept by its dictionary key (07 R207, 09 R305, 10 R343). -/
def State.modCount (s : State) (i sub n : Nat) : State :=
  { s with modCnt := SMap.mod 0 s.modCnt (odKey i sub) (satAdd 32 · n) }

/-- Counters of Laurel, OD 0x7400 (11 R390). -/
def State.laurelCount (s : State) (sub n : Nat) : State :=
  { s with laurel := { s.laurel with cnt := SMap.mod 0 s.laurel.cnt sub (add64 · n) } }

/-- The ring as distributed descriptors meet it (12 R391, R392). -/
def State.ring (s : State) : RingAt := ⟨s.briar.n, s.briar.pos⟩

/-- A fresh identifier. -/
def State.fresh (s : State) : Nat × State := (s.nextId, { s with nextId := s.nextId + 1 })

/-- A free value (log 3). -/
def State.draw (s : State) : Word64 × State := (Config.freeWord s.free, { s with free := s.free + 1 })

/-! ## Phase of the module -/

/-- The module is at Ready: the working parts run (16 R499). -/
def State.isReady (s : State) : Bool := s.power.phase == .ready

/-! ## Events (15 R488, R490) -/

/-- An event enters the intake FIFO: of a full one the oldest item is overwritten and counted. -/
def Log.take (l : Log) (e : Ev) : Log :=
  let full := decide (64 ≤ l.intake.length)
  { l with intake := (if full then l.intake.drop 1 else l.intake) ++ [e], lost := if full then inc32 l.lost else l.lost }

/-- A record has been read once a read has returned it, its notice has been acknowledged, or it has been spilled (15 R487). -/
def Log.markRead (l : Log) (seq : Nat) : Log :=
  { l with records := l.records.map fun r => if r.seq = seq then { r with read := true } else r }

/-- An event reaches the intake FIFO, which gives it its time and step; while the mesh is isolated only the island's own enter. -/
def State.post (s : State) (e : Ev) : State :=
  if s.power.isolated && e.source != 0x90 then s
  else { s with log := s.log.take { e with time := s.ts, step := s.laurel.step.num } }

def State.postAll (s : State) (es : List Ev) : State := es.foldl State.post s

/-! ## MSI-X and function events (10 R324, R339) -/

/-- Something leaves the module. -/
def State.emit (s : State) (o : Out) : State := { s with outbox := o :: s.outbox }

/-- Reset value of a byte of the MSI-X table. -/
def msixReset (a : Nat) : Byte := if a % 16 = 12 then 1#8 else 0#8

/-- Is a vector masked, by its own mask bit or with all of its function's (10 R339: PCIe's rules)? -/
def Fn.masked (f : Fn) (v : Nat) : Bool := f.msixMask || (SMap.get 0#8 f.msix (16 * v + 12) ^^^ msixReset 12).toNat % 2 == 1

/-- One message on a vector, or its pending bit where the vector is masked; none while MSI-X is not enabled. -/
def State.msix (s : State) (p : PortId) (f v : Nat) : State :=
  if !(s.fn p f).msixEn then s
  else if (s.fn p f).masked v then
    s.modFn p f fun x => { x with pba := SMap.mod 0#8 x.pba (v / 8) (· ||| BitVec.ofNat 8 (2 ^ (v % 8))) }
  else s.emit (.msix p f v)

/-- A bit of FN_EVENT is set; a VF has only bits 0, 3 and 4. A change from 0 to 1 of an enabled bit sends vector 0. -/
def State.fnEvent (s : State) (p : PortId) (f bit : Nat) : State :=
  if f != 0 && (bit == 1 || bit == 2 || bit == 5 || bit == 6) then s
  else
    let x := s.fn p f
    let s' := s.setFn p f { x with event := x.event ||| 2 ^ bit }
    if !x.event.testBit bit && x.eventEn.testBit bit && (s.port p).up then s'.msix p f 0 else s'

/-- A bit in both PFs. -/
def State.bothPfs (s : State) (bit : Nat) : State := (s.fnEvent false 0 bit).fnEvent true 0 bit

/-- Functions of a port that exist (10 R319). -/
def State.fnsOf (s : State) (p : PortId) : List Nat := List.range (1 + min 15 (s.port p).numVfs)

/-- The port that owns a partition (10 R340): none, A or B. -/
def State.ownerOf (s : State) (part : Nat) : Option PortId :=
  match s.odv 0x5000 (part + 1) with
  | 1 => some false
  | 2 => some true
  | _ => none

/-- The function that owns a pool queue, with its local number (10 R325, R326). -/
def State.holderOf (s : State) (q : Nat) : Option (PortId × Nat × Nat) :=
  ([false, true].flatMap fun p => (List.range 16).map fun f => (p, f)).findSome? fun x =>
    let f := s.fn x.1 x.2
    if f.qBase ≤ q ∧ q < f.qBase + f.qCount then some (x.1, x.2, q - f.qBase) else none

/-- Functions that hold queues of a partition. -/
def State.holdersOf (s : State) (part : Nat) : List (PortId × Nat) :=
  ([false, true].flatMap fun p => (List.range 16).map fun f => (p, f)).filter fun x =>
    let f := s.fn x.1 x.2
    decide (0 < f.qCount) && f.qPart == part

/-- Pool queues of a partition. -/
def State.queuesOf (s : State) (part : Nat) : List Nat :=
  (s.holdersOf part).flatMap fun x => let f := s.fn x.1 x.2; (List.range f.qCount).map (f.qBase + ·)

/-! ## Accesses in flight -/

/-- An access is issued. -/
def State.ask (s : State) (q : Txn) : State :=
  { s with txns := s.txns ++ [{ q with id := s.nextId, pkt := s.nextId + 1 }], nextId := s.nextId + 1 }

def State.txn? (s : State) (id : Nat) : Option Txn := s.txns.find? (·.id == id)

def State.modTxn (s : State) (id : Nat) (f : Txn → Txn) : State :=
  { s with txns := s.txns.map fun q => if q.id = id then f q else q }

def State.dropTxn (s : State) (id : Nat) : State := { s with txns := s.txns.filter (·.id != id) }

/-! ## Order at a home (09 R289, R290) -/

/-- Stages before an access is performed. -/
def Stage.before : Stage → Bool
  | .held | .queued | .flying | .atHome | .remote => true
  | .responding | .returned => false

/-- Was an access of the same agent issued before: in an earlier beat, or before it within one? A scatter's write counts from the scatter's issue, whenever its source is read
(06 R520, 09 R290). -/
def Txn.earlier (x q : Txn) : Bool := decide (x.sentAt < q.sentAt) || (x.sentAt == q.sentAt && decide (x.id < q.id))

/-- Does an earlier access of the same agent to the same grain wait to be performed? -/
def State.behind (s : State) (q : Txn) : Bool :=
  s.txns.any fun x => x.earlier q && x.agent == q.agent && x.dest.module == q.dest.module &&
    x.dest.addr / 64 == q.dest.addr / 64 && x.stage.before

/-! ## A remote port's request of several grains (03 R94) -/

/-- The grain with which the remote port of `t` goes on: the next of the request that it has begun. -/
def State.burstNext (s : State) (t : Nat) : Option Txn :=
  match (s.tile t).burst with
  | none => none
  | some (p, g) =>
    s.txns.find? fun x => x.stage == .atHome && x.pkt == p && placeOf x.dest.addr == .scratch t (64 * g + x.dest.addr % 64) && !s.behind x

/-- May the remote port of `t` serve another request at a bank now, one that writes or one that reads? -/
def State.portFree (s : State) (t bank : Nat) (wr : Bool) : Bool := (s.tile t).slotFree bank wr && (s.burstNext t).isNone

/-- The remote port of `t` has to go on in this beat with a request that it has begun. -/
def State.burstDue (s : State) (t : Nat) : Bool :=
  match s.burstNext t with
  | some x => (s.tile t).slotFree (bankOf (x.dest.addr / 64)) (x.kind != .read)
  | none => false

/-- Partition whose requests a tile's running kernel makes (07 R237). -/
def State.tilePart (s : State) (t : Nat) : Option Nat :=
  let l := (s.tile t).kern.launch
  if (s.tile t).kern.inKernel then (s.launches.find? (·.id == l)).bind (·.part) else none

/-- The commands of a tile are gone: descriptor grains on their way to them reach nobody (04 R134). -/
def State.dropDescs (s : State) (t : Nat) : State :=
  let mine (q : Txn) : Bool := (match q.purpose with | .desc u _ _ => u.val == t | _ => false)
  { s with txns := (s.txns.filter fun q => !(mine q && q.stage == .returned)).map fun q => if mine q then { q with purpose := .posted } else q }

/-- The grains of the die that the engines of a tile have writes for which have not entered the mesh: those asked for, and those of scatters whose sources are still
to be read (09 R290). -/
def State.unsent (s : State) (t : Nat) : List (Nat × Nat) :=
  (s.txns.filterMap fun q => (match q.agent with
    | .engine u e => if u.val == t && q.kind != .read && q.dest.module.isNone && (q.stage == .held || q.stage == .queued) then some (e.val, q.dest.addr / 64) else none
    | _ => none)) ++
  (s.tile t).ops.flatMap fun o => o.srcs.flatMap fun x => (x.dests.filter (·.1.module.isNone)).map fun d => (o.eng.val, d.1.addr / 64)

/-- A tile about to do its part of a step. -/
def State.begin (s : State) (t : Nat) : Work := { t := s.tile t, unsent := s.unsent t }

/-- What a tile's work leaves: the tile, its events, its accesses, its parity errors and folds; the release tags of grains written plainly go (09 R304), and with
a kernel's fault the descriptors asked for. -/
def State.fromWork (s : State) (t : Nat) (w : Work) : State :=
  let part := s.tilePart t
  let fell := w.t.kern.stopped && !(s.tile t).kern.stopped
  let s := (s.setTile t w.t).postAll w.evs
  let s := w.reqs.foldl (fun s q => s.ask { q with part := part }) s
  let s := if w.wrote.isEmpty then s
    else { s with tileTags := SMap.set [] s.tileTags t ((SMap.get [] s.tileTags t).filter fun x => !w.wrote.contains x.1) }
  let s := { s with totals := { s.totals with parity := satAdd 32 s.totals.parity w.parity }, folds := s.folds ++ w.folds }
  if fell then s.dropDescs t else s

/-- A tile does its part of a step. -/
def State.work (s : State) (t : Nat) (f : Work → Work) : State := s.fromWork t (f (s.begin t))

/-- An end notice leaves a tile (04 R119). -/
def State.notify (s : State) (n : EndNotice) : State := { s with notices := s.notices ++ [n] }

/-- Saturations of an interval credited to a class (05 R171, R172). -/
def State.credit (s : State) (cls n : Nat) : State :=
  if n = 0 then s
  else
    let l := s.laurel
    { s with laurel := { l with sat := SMap.mod 0 l.sat cls (satAdd 32 · n), satTotal := SMap.mod 0 l.satTotal cls (add64 · n) } }

/-- A block leaves idle after step-quiet has been raised: step-quiet falls (04 R143). -/
def State.leaveQuiet (s : State) : State :=
  if s.drain.quiet then { s with drain := { s.drain with quiet := false, restarts := inc32 s.drain.restarts } } else s

/-! ## Ends of kernels -/

/-- Has tile `t` ended launch `l`, or is it not named by it? -/
def State.endedIn (s : State) (l t : Nat) : Bool :=
  (match s.launches.find? (·.id == l) with
   | some x => !x.open_.contains t
   | none => true) ||
  s.notices.any fun n => n.launch == l && n.tile == t

/-- A launch ends in tile `t` with a fault code: the words of its stream in the tile's FIFO are dropped; a kernel in progress faults, and where it has not
started the tile reports at once (04 R119, R134 to R136). -/
def State.faultIn (s : State) (l code t : Nat) : State :=
  if s.endedIn l t then s
  else
    let tl := s.tile t
    let gone := tl.fifo.countP (·.launch == l)
    let s := s.setTile t (({ tl with fifo := tl.fifo.filter (·.launch != l) }).bump cBcastDiscard gone)
    if tl.kern.inKernel && tl.kern.launch == l then
      (s.work t fun w => w.meetFault code).modTile t fun tl => { tl with kern := { tl.kern with lastPopped := true } }
    else
      let kid := ((s.launches.find? (·.id == l)).map (·.kernelId)).getD 0
      let s := s.modTile t fun tl => { tl.bump cKernelFaults 1 with sched := { tl.sched with kfault := code } }
      let s := if code = 9 then s else s.post { code := 0x30, source := t, args := [kid, t + 256 * code] }
      s.notify ⟨l, t, code, false, false, false⟩

/-- A launch ends with ABORTED (04 R135; 10 R342; 11 R386): in each tile the kernel in progress faults; where it has not started the tile reports at once and
the stream's words are dropped. -/
def State.abortLaunch (s : State) (l : Nat) : State :=
  match s.launches.find? (·.id == l) with
  | none => s
  | some x =>
    let s := { s with launchPkts := s.launchPkts.filter (·.launch != l) }
    let s := (List.range 8).foldl (fun s h =>
      let g := s.hedge h
      s.setHedge h { streams := g.streams.filter (·.launch != l), waiting := g.waiting.filter (·.launch != l) }) s
    let s := { s with txns := s.txns.filter fun q => (match q.purpose with | .stream _ y _ => y != l | _ => true) }
    x.open_.foldl (fun s t => s.faultIn l 9 t) s

/-! ## Ends of Privet commands (08 R282) -/

/-- PART of a unit's command (08 R245). -/
def UCmd.part (c : UCmd) : Nat := bits (fieldAt c.bytes 0 8) 14 4

/-- PRIM, CMD_TAG and the other fields of word 0. -/
def UCmd.w0 (c : UCmd) : Nat := fieldAt c.bytes 0 8
def UCmd.tag (c : UCmd) : Nat := fieldAt c.bytes 4 4

def UCmd.prim (c : UCmd) : Nat := bits c.w0 0 4

/-- First store word of a micro-program. -/
def UCmd.entry (c : UCmd) : Nat := bits c.w0 4 10

/-- A command as it starts: a micro-program at ENTRY (08 R257). -/
def UCmd.run (c : UCmd) (ts : Nat) : URun := { cmd := c, startTs := ts, micro := { pc := c.entry } }

/-- A unit starts its next command (08 R247); one with PRIM 0 waits in the queue until VALID is 1 (R258). -/
def PUnit.next (u : PUnit) (ts : Nat) : PUnit :=
  match u.running, u.queue with
  | none, c :: r => if u.load || (c.prim == 0 && !u.crcValid) then u else { u with running := some (c.run ts), queue := r }
  | _, _ => u

/-- The unit's reading of the timebase (08 R253). -/
def State.unitTs (s : State) (u : Nat) : Nat := s.fabricTs (0x200 + u)

/-- Count in a unit's counter. -/
def PUnit.bump (u : PUnit) (off n : Nat) : PUnit :=
  if n = 0 then u else { u with cnt := SMap.mod 0 u.cnt off (satAdd 32 · n) }

/-- Counters of a command that has ended (08 R244). -/
def PUnit.ended (x : PUnit) (r : URun) (status : Nat) : PUnit :=
  let x := (x.bump 0xC0 1).bump 0xC4 (b2n (status != 0))
  let x := (x.bump 0xCC (b2n (status == 2))).bump 0xD0 r.acc.narrow
  let x := ((x.bump 0xDC r.acc.low).bump 0xE0 r.acc.high).bump 0xFC (b2n (status == 7))
  { x with running := none, tokenWait := false, lastStatus := status, lastTag := r.cmd.tag }

/-- Count in a stack's totals (07 R241, 08 R283). -/
def State.stackCount (s : State) (k sub n : Nat) : State :=
  s.setTier k (({ k := k, t := s.tier k } : TWork).count sub n).t

/-- Totals of a unit's ended command: its stack's (08 R283), the module's clamped indices (R262, 15 R493), the interval's narrow runs (R271). -/
def State.unitTotals (s : State) (k : Nat) (r : URun) (status : Nat) : State :=
  let s := (((s.stackCount k 9 r.acc.narrow).stackCount k 0xA (b2n (status == 2))).stackCount k 0xD (b2n (status == 7))).stackCount k 0xE 1
  let s := s.stackCount k 0xF (r.acc.low + r.acc.high)
  { s with
    totals := { s.totals with tile := SMap.mod 0 (SMap.mod 0 s.totals.tile cClampLow (satAdd 64 · r.acc.low)) cClampHigh (satAdd 64 · r.acc.high) }
    laurel := { s.laurel with narrow := s.laurel.narrow + r.acc.narrow } }

/-- The results of a unit's aborted command: what has not left the unit does not; what has lands, and counts no tally (08 R251, R282). -/
def State.dropResults (s : State) (u : Nat) : State :=
  let mine (q : Txn) : Bool := (match q.purpose with | .result v => v.val == u | _ => false)
  { s with txns := (s.txns.filter fun q => !(mine q && q.stage == .queued)).map fun q => if mine q then { q with purpose := .posted, rtally := none } else q }

/-- A pause of a unit's command ends after `beats` base-die beats, with the refreshes that its open and next banks had pending performed (08 R280, R281). -/
def State.pauseOver (s : State) (u : Nat) (r : URun) (beats : Nat) : State :=
  let s := s.modUnit u fun x =>
    { (x.bump 0xD8 beats) with
      pauseLongest := min (max x.pauseLongest beats) (2 ^ 32 - 1)
      running := some { r with
        paused := false, pauseBeats := satAdd 32 r.pauseBeats beats, pauseNs := r.pauseNs + (s.ts - r.pausedAt), rows := [], acts := some 0 } }
  let t := s.tier (u / 64)
  let banks := r.rows.keys ++ r.next.toList
  s.setTier (u / 64) { t with
    refresh := SMap.drop t.refresh fun x => x / 64 == u % 64 && banks.contains (x % 64)
    cnt := SMap.set 0 t.cnt 0xC (min (max (SMap.get 0 t.cnt 0xC) beats) (2 ^ 32 - 1)) }

/-- A pause that a discard of its command cuts: the refreshes are performed all the same; its length in base-die beats, of at most 190 ns, is free (log 113). -/
def State.pauseCut (s : State) (u : Nat) : State :=
  match (s.unit u).running with
  | some r => if r.paused then ({ s with free := s.free + 1 } : State).pauseOver u r ((Config.freeWord s.free).toNat % 214) else s
  | none => s

/-- In unit `u` the queued commands that `hit` picks are discarded, and a running one ends with ABORTED: no further grain, no record, tally or notice (08 R282). DESIGN CHOICE (log 56): its
saturations are not credited to PRIVET, and LAST_RECORD keeps the record before. -/
def State.discardUnit (s : State) (hit : Nat → Bool) (u : Nat) : State :=
  let s := if (match (s.unit u).running with | some r => hit r.cmd.part | none => false) then s.pauseCut u else s
  let x := s.unit u
  let x := { x with queue := x.queue.filter fun c => !hit c.part }
  match x.running with
  | some r =>
    if hit r.cmd.part then ((s.setUnit u ((x.ended r 8).next (s.unitTs u))).dropResults u).unitTotals (u / 64) r 8
    else s.setUnit u x
  | none => s.setUnit u (x.next (s.unitTs u))

/-- Command grains that wait at a stack port for a unit's queue (08 R246). -/
def unitCommandAt (a : Nat) : Option Nat :=
  match placeOf a with
  | .control off =>
    if 0x04000000 ≤ off ∧ off < 0x04020000 then
      (if (off - 0x04000000) % 0x100 = 0x40 then some ((off - 0x04000000) / 0x100) else none)
    else none
  | _ => none

/-- Discard the Privet commands of the partitions that `hit` picks, in every unit, and the grains that wait for a place, whose writes are acknowledged. -/
def State.discardUnits (s : State) (hit : Nat → Bool) : State :=
  let s := s.units.keys.foldl (fun s u => s.discardUnit hit u) s
  { s with txns := s.txns.map fun q =>
      if q.stage == .atHome && ((unitCommandAt q.dest.addr).map fun u => !(s.unit u).load) == some true && q.data.bytes.length == 64 &&
         hit (q.part.getD (bits (fieldAt q.data.bytes 0 8) 14 4)) then { q with stage := .responding } else q }

/-! ## Step abort (11 R386) -/

/-- Partitions of the sequences in the running step. -/
def State.stepParts (s : State) : List Nat := (s.laurel.step.entries.map fun e => (s.seq e.seq).part).eraseDups

/-- A step abort: the step closes (04 R139), nothing more is launched, running kernels of the step end with ABORTED, its partitions' Privet commands are discarded. -/
def State.stepAbort (s : State) (cause : Nat) : State :=
  let st := s.laurel.step
  if !st.running || st.aborting then s
  else
    let s := s.post { code := 0x40, source := 0x89, args := [st.num, cause] }
    let s := { s with laurel := { s.laurel with step := { st with aborting := true, tails := [] } }, portGot := s.portGot.filter (·.who != 0) }
    let d := s.drain
    let s := { s with drain := { d with active := true, since := if d.active then d.since else s.fabricTs 0x89 } }
    let mine := (s.launches.filter fun l => l.by_ == .laurel).map (·.id)
    let s := mine.foldl State.abortLaunch s
    let ps := s.stepParts
    s.discardUnits fun p => ps.contains p

/-- A weight page entry's tier and page (11 R358). -/
def weightAt (w : Nat) : Nat × Nat := (bits w 0 4, bits w 4 15)

/-- Is a page in the resident model's weight list? -/
def State.isWeight (s : State) (k page : Nat) : Bool :=
  match s.laurel.decl with
  | some d => d.weights.any fun w => weightAt w == (k, page)
  | none => false

/-- A page has been recorded as Blighted: a weight page aborts the step and is to be repaired (11 R385, R387). -/
def State.onBlight (s : State) (k page : Nat) : State :=
  if s.isWeight k page then
    let s := { s with laurel := { s.laurel with waitPage := some (k, page), wantBoundary := true } }
    s.stepAbort 3
  else s

/-- What a tier's work leaves. -/
def State.fromTier (s : State) (w : TWork) : State :=
  let s := (s.setTier w.k w.t).postAll w.evs
  w.blights.foldl (fun s b => s.onBlight w.k b.1) s

/-- A tier does its part of a step. -/
def State.tierWork (s : State) (k : Nat) (f : TWork → TWork) : State := s.fromTier (f { k := k, t := s.tier k })

/-- A read of a grain at its home by a block of the die that waits for it within the step (Laurel, a core's load, a host): data of `n` bytes. -/
def State.readHome (s : State) (k off n : Nat) (u : Upset) : Piece × Nat × Bool × State :=
  let r := ({ k := k, t := s.tier k } : TWork).readGrain (off / 64) u
  (⟨(r.data.drop (off % 64)).take n, r.poison⟩, r.status, r.unchecked, s.fromTier r.w)

/-- A write at a home performed within the step: the acknowledgement's status and unchecked flag. -/
def State.writeHome (s : State) (k off : Nat) (d : List Byte) (poison : Bool) (u : Upset) : Nat × Bool × State :=
  let r := ({ k := k, t := s.tier k } : TWork).writeGrain off d poison u
  (r.status, r.unchecked, s.fromTier r.w)

/-- Performs the scratchpad access that a command waits for, through the tile's remote port, once the port takes it: an access of one grain (03 R92, R94). -/
def State.portStep (s : State) (x : PortAcc) : State :=
  match placeOf x.addr with
  | .scratch t off =>
    if !s.portFree t (bankOf (off / 64)) x.data.isSome then s
    else
      let s := s.modTile t fun y => y.usePort (bankOf (off / 64))
      match x.data with
      | none =>
        let w := (s.begin t).readGrain t (off / 64)
        let s := s.fromWork t w.2
        { s with portGot := s.portGot ++ [{ x with got := ⟨(w.1.bytes.drop (off % 64)).take x.len, w.1.poison⟩ }] }
      | some d =>
        let s := s.work t fun w => w.writeBytes t off d
        { s with portGot := s.portGot ++ [x] }
  | _ => s

/-- A command one of whose accesses has to wait changes nothing (07 R221, R239); where it is one to a scratchpad, that access is performed for it, and the command
finds it done when it is tried again (03 R94; log 110). -/
def State.unlessBlocked (s s' : State) : State :=
  if s'.blocked && !s.blocked then (match s'.portWant with | some x => s.portStep x | none => s) else s'

/-- As `still`, for the dictionary, Hedgerow and the event log: of power, pins and thermal control they write the count of parameter writes and the request for
defaults alone (13 R442). -/
def State.served (s s' : State) : Host.Outcome State Fault Refusal :=
  let s' := s.unlessBlocked s'
  .next { s' with
    pending := s.pending, ts := s.ts, hk := s.hk
    power := { s.power with paramWrites := s'.power.paramWrites, defaultsAtStart := s'.power.defaultsAtStart } }

/-- A scratchpad access by a block that waits for it: done already, or to be done before its command is. -/
def State.viaPort (s : State) (a n : Nat) (d : Option Piece) : Piece × State :=
  let x : PortAcc := { who := s.acct.who, addr := a, len := n, data := d }
  match s.portGot.find? fun y => { y with got := {} } == x with
  | some y => (y.got, { s with portGot := s.portGot.erase y })
  | none => (⟨noData n, true⟩, { s with blocked := true, portWant := s.portWant.or (some x) })

/-- Bucket of a memory tier's offset: the stack's, or its board half's (07 R238). -/
def tierBucket (k off : Nat) : Nat := if k < 8 then k else 16 + off / 0x600000000

/-- Laurel's own blocks work for a partition, or for none (07 R237). -/
def State.forPart (s : State) (part : Option Nat) (f : State → α × State) : α × State :=
  let r := f { s with acct := { s.acct with part := part } }
  (r.1, { r.2 with acct := { r.2.acct with part := s.acct.part } })

/-- A block works on one thing for which it may have to wait for scratchpads, for a partition or for none: an operation or a launch, by its number. -/
def State.forWho (s : State) (who : Nat) (f : State → α × State) : α × State :=
  let r := f { s with acct := { s.acct with who := who } }
  (r.1, { r.2 with acct := { r.2.acct with who := s.acct.who } })

def State.onBehalf (s : State) (part : Option Nat) (f : State → State) : State := (s.forPart part fun s => ((), f s)).2

/-- An access of a grain on a partition's behalf is noted, for its charge. -/
def State.owesFor (s : State) (idx : Nat) : State :=
  match s.acct.part with
  | some p => { s with acct := { s.acct with owed := s.acct.owed ++ [(p, idx)] } }
  | none => s

/-- Does an access of the die to a tier's offset meet the page being converted (07 R221)? -/
def State.converting (s : State) (k off : Nat) : Bool := (s.tier k).mode k (pageOf off) == .waits

/-- Bytes of a die range read at their homes by a block that waits for them: tiers, and scratchpads through their remote ports, grain by grain; poisoned where any piece is. An unmapped
grain counts as the access that it is (07 R207), and one of the page being converted makes the command wait (07 R221). -/
def State.readDie (s : State) (a n : Nat) : Piece × State :=
  (spanCuts a n).foldl (fun (acc : Piece × State) c =>
    match placeOf (a + c.1) with
    | .tier k off =>
      if acc.2.converting k off then (⟨acc.1.bytes ++ noData c.2, true⟩, { acc.2 with blocked := true })
      else
        let r := (acc.2.owesFor (tierBucket k off)).readHome k off c.2 {}
        (⟨acc.1.bytes ++ padTo c.2 r.1.bytes, acc.1.poison || r.1.poison⟩, if r.2.1 = 6 then r.2.2.2.modCount 0x7209 1 1 else r.2.2.2)
    | .scratch _ _ =>
      let r := acc.2.viaPort (a + c.1) c.2 none
      (⟨acc.1.bytes ++ r.1.bytes, acc.1.poison || r.1.poison⟩, r.2)
    | _ => (⟨acc.1.bytes ++ noData c.2, true⟩, acc.2.modCount 0x7209 1 1)) ({}, s)

/-- A write that is no release removes its grain's entry from the home's release tags (09 R304). -/
def State.untag (s : State) (p : Place) : State :=
  match p with
  | .tier k off =>
    let x := s.tier k
    s.setTier k { x with tags := x.tags.filter (·.1 != off / 64) }
  | .scratch t off => { s with tileTags := SMap.set [] s.tileTags t ((SMap.get [] s.tileTags t).filter (·.1 != off / 64)) }
  | _ => s

/-- Bytes written at their homes by a block that waits for them; whether all were performed. -/
def State.writeDie (s : State) (a : Nat) (d : List Byte) (poison : Bool) : Bool × State :=
  (spanCuts a d.length).foldl (fun (acc : Bool × State) c =>
    let b := (d.drop c.1).take c.2
    match placeOf (a + c.1) with
    | .tier k off =>
      if acc.2.converting k off then (false, { acc.2 with blocked := true })
      else
        let r := (acc.2.owesFor (tierBucket k off)).writeHome k off b poison {}
        (acc.1 && r.1 == 0, if r.1 = 6 then r.2.2.modCount 0x7209 1 1 else if r.1 = 0 then r.2.2.untag (.tier k off) else r.2.2)
    | .scratch _ _ => (acc.1, (acc.2.viaPort (a + c.1) c.2 (some ⟨b, poison⟩)).2)
    | _ => (false, acc.2.modCount 0x7209 1 1)) (true, s)

/-! ## Regulators (07 R237 to R240, 10 R341, 12 R413) -/

/-- Offset in its tier of a die address. -/
def tierOffset (a : Nat) : Nat := match placeOf a with | .tier _ off => off | _ => 0

/-- Start level of every bucket: the default BURST of 256 KiB in 1/25 byte (log 13). -/
def bucketStart : Int := 6553600

/-- A regulator setting of partition `p` as the regulators hold it: as the dictionary had it at the last refill (07 R240). -/
def State.regv (s : State) (p sub : Nat) : Nat := odValue s.regNow (0x5200 + p) sub

/-- Is the regulator of a bucket enabled for a partition? -/
def State.regOn (s : State) (p idx : Nat) : Bool :=
  if idx < 8 then (s.regv p 1).testBit 0
  else if idx < 16 then (s.regv p 1).testBit 1
  else if idx < 18 then (s.regv p 1).testBit 2
  else if idx < 20 then s.regv p 8 == 1
  else s.regv p 0xB == 1

/-- BORROW of a partition. -/
def State.borrows (s : State) (p : Nat) : Bool := (s.regv p 1).testBit 3

def State.tokens (s : State) (p idx : Nat) : Int := SMap.get bucketStart s.buckets (64 * p + idx)

/-- Has a partition tokens in a bucket, or needs none? -/
def State.paid (s : State) (p idx : Nat) : Bool := !s.regOn p idx || decide (0 < s.tokens p idx)

/-- Add to a partition's counter OD (0x7210 + p).sub. -/
def State.partCount (s : State) (p sub n : Nat) : State :=
  { s with partCnt := SMap.mod 0 s.partCnt (odKey (0x7210 + p) sub) (add64 · n) }

/-- Charge `n` bytes of a partition to a bucket: with tokens they are subtracted, without (BORROW) only counted. -/
def State.charge (s : State) (p idx n : Nat) : State :=
  let s := if idx < 8 then s.partCount p 1 n else if idx < 16 then s.partCount p 2 n else if idx < 18 then s.partCount p 3 n else s
  if !s.regOn p idx then s
  else if 0 < s.tokens p idx then
    { s with buckets := SMap.mod bucketStart s.buckets (64 * p + idx) (· - 25 * (n : Int)) }
  else s.partCount p 5 n

/-- Does another partition with tokens wait to move bytes over PCIe in the direction of a bucket: a record, or more of a copy (10 R341)? -/
def State.paidHost (s : State) (part : Option Nat) (idx : Nat) : Bool :=
  (idx == 18 || idx == 19) && s.ops.any fun o =>
    part != some o.part && (s.port o.port).up && s.paid o.part idx &&
      ((idx == 18 && o.stage == .done && !o.silent) ||
       (o.stage == .running && (fieldAt o.desc 0 1 == 2 || fieldAt o.desc 0 1 == 3) && o.status == 0 && decide (o.sent < o.total) && (fieldAt o.desc 0x1C 1).testBit 0 == (idx == 18)))

/-- Is another access with tokens, or in no need of them, waiting at the port that a bucket belongs to? -/
def State.paidWaits (s : State) (q : Txn) (idx : Nat) : Bool :=
  s.paidHost q.part idx || s.txns.any fun x => x.id != q.id && x.stage == .atHome &&
    (match placeOf x.dest.addr with | .tier k off => tierBucket k off == idx | _ => false) &&
    (match x.part with | some p => s.paid p idx | none => true)

/-- May an access pass the port of a bucket (07 R239): it carries no partition, or its partition's regulator lets it, or it borrows where nobody with tokens waits? -/
def State.mayAccess (s : State) (q : Txn) (idx : Nat) : Bool :=
  match q.part with
  | none => true
  | some p => q.paid || s.paid p idx || (s.borrows p && !s.paidWaits q idx)

/-- The bucket at the port of the memory that an access is for. -/
def Txn.bucket (q : Txn) : Option Nat := match placeOf q.dest.addr with | .tier k off => some (tierBucket k off) | _ => none

/-- A packet of `g` grains that is granted at a bucket's port is charged 64 × g bytes at once, with the grant of its first grain (07 R239). -/
def State.payPacket (s : State) (q : Txn) (idx : Nat) : State :=
  match q.part with
  | none => s
  | some p =>
    if q.paid then s
    else
      let mate (x : Txn) : Bool := x.id == q.id || (q.pkt != 0 && x.pkt == q.pkt && x.stage == q.stage)
      let s := s.charge p idx (64 * max 1 (s.txns.countP mate))
      { s with txns := s.txns.map fun x => if mate x then { x with paid := true } else x }

/-- May a block that waits for its access pass the port of a bucket? -/
def State.mayPass (s : State) (part : Option Nat) (idx : Nat) : Bool :=
  s.mayAccess { id := s.nextId, agent := .laurel, kind := .read, dest := ⟨none, 0⟩, len := 0, part := part, purpose := .posted } idx

/-- A request of up to four grains by a block that waits for it, for a partition: held while its bucket is empty, then charged and read (07 R237, R239). -/
def State.readFor (s : State) (part : Option Nat) (a n : Nat) : Piece × State :=
  match part, placeOf a with
  | some p, .tier k off =>
    if !s.mayPass part (tierBucket k off) then (⟨noData n, true⟩, { s with blocked := true })
    else (s.charge p (tierBucket k off) (64 * (spanCuts a n).length)).readDie a n
  | _, _ => s.readDie a n

/-- A write to host memory by a function, in packets of at most its largest payload (10 R316). -/
def State.hostOut (s : State) (p : PortId) (f addr : Nat) (data : List Byte) (ep : Bool) : State :=
  let n := 128 * 2 ^ (s.fn p f).mps
  (chunksOf n (data.length / n + 1) data).zipIdx.foldl (fun s c => s.emit (.hostWrite p ((addr + n * c.2) % 2 ^ 64) c.1 ep)) s

/-- `n` bytes of a partition cross a port, towards the host or from it: held while the bucket of that direction is empty, then charged (10 R341). -/
def State.pcie (s : State) (part : Nat) (toHost : Bool) (n : Nat) : State :=
  if s.mayPass (some part) (if toHost then 18 else 19) then s.charge part (if toHost then 18 else 19) n else { s with blocked := true }

/-- The end of a command that has worked for partitions: it waits, and changes nothing, while a bucket that it needs is empty; then each falls by all that the
command has reached (07 R239; log 98). -/
def State.settle (s s' : State) : State :=
  let due := s'.acct.owed
  if due.isEmpty || s.acct != {} then s'
  else if due.any fun x => !s.mayPass (some x.1) x.2 then { s' with blocked := true }
  else due.eraseDups.foldl (fun s x => s.charge x.1 x.2 (64 * due.count x)) { s' with acct := {} }

/-- An SRAM error that has no counter of its own (15 R478). The module totals do not advance while the mesh is unpowered (13 R523). -/
def State.sramCorr (s : State) (n : Nat) : State :=
  if s.power.isolated then s else { s with totals := { s.totals with corr := add64 s.totals.corr n } }
def State.sramUncorr (s : State) (source m loc : Nat) : State :=
  let s := s.post (Sys2Proof.Machine.sramUncorr source m loc)
  if s.power.isolated then s else { s with totals := { s.totals with uncorr := inc32 s.totals.uncorr } }

/-! ## Laurel's tables -/

def State.modLaurel (s : State) (f : Laurel → Laurel) : State := { s with laurel := f s.laurel }

/-- A KV Block Directory entry. -/
def State.ext (s : State) (i : Nat) : Ext := SMap.get {} s.laurel.kvdir i
def State.setExt (s : State) (i : Nat) (x : Ext) : State := s.modLaurel fun l => { l with kvdir := SMap.set {} l.kvdir i x }

/-- A fault waits for the boundary: the lowest code stays (11 R385). -/
def State.faultSeq (s : State) (q code : Nat) : State :=
  if (s.seq q).state = 0 || (s.seq q).state = 8 then s
  else s.modSeq q fun x => { x with fault := if x.fault = 0 then code else min x.fault code }

/-- Laurel asks for a boundary. -/
def State.wantBoundary (s : State) : State := s.modLaurel fun l => { l with wantBoundary := true }

/-- Offset of an entry of a table in the Laurel area: 1 directory, 2 sequence, 3 scale, 4 frame (15 R489). -/
def laurelAt (table idx : Nat) : Nat :=
  match table with
  | 1 => 0x100000 + 16 * idx
  | 2 => 0x10000 + 128 * idx
  | 3 => 0x200000 + 128 * idx
  | _ => 0x100 + 128 * idx

/-- Table and index at an offset of the Laurel area. -/
def laurelEntry (o : Nat) : Nat × Nat :=
  if 0x200000 ≤ o then (3, (o - 0x200000) / 128)
  else if 0x100000 ≤ o then (1, (o - 0x100000) / 16)
  else if 0x10000 ≤ o then (2, (o - 0x10000) / 128)
  else (4, (o - 0x100) / 128)

/-- An uncorrectable word in Laurel's tables, a sequence entry's HANDLE word being intact (15 R478, R481). The step frame has no row of its own in R385: its
abort's cause reads 0 (log 26). -/
def State.laurelHit (s : State) (table idx : Nat) : State :=
  let s := (s.sramUncorr 0x89 11 (laurelAt table idx)).post { code := 0x46, source := 0x89, args := [table, idx] }
  match table with
  | 1 => if (s.ext idx).state = 0 then s else s.setExt idx { s.ext idx with state := 4 }
  | 2 => (s.faultSeq idx 2).wantBoundary
  | 3 => s.modLaurel fun l => { l with slots := SMap.mod {} l.slots idx fun x => { x with lost := true } }
  | _ => (s.modLaurel fun l => { l with step := { l.step with lost := true } }).stepAbort 0

end Sys2Proof.Machine
end

