-- ==== Sys2Proof/Machine/RegOps.lean ====
section
/-!
DEFINITION. Registers of the control range: the die control window and Laurel's tables as reads and writes meet them (03 R103,
04 R133, R138, 05 R167, 06 R188, 07 R219 to R236, 08 R243, R244, 10 R322, R323, 11 R355 to R370).
-/

namespace Sys2Proof.Machine

/-! ## Tile control -/

def tileX (t : Nat) : Nat := t % 16
def tileY (t : Nat) : Nat := t / 16
/-- Hedge of a tile (03 R70). -/
def hedgeOf (t : Nat) : Nat := 4 * (tileY t / 4) + tileX t / 4
/-- A tile's number in its hedge (03 R80). -/
def inHedge (t : Nat) : Nat := 4 * (tileY t % 4) + tileX t % 4
/-- Tile `i` of a hedge. -/
def tileOf (h i : Nat) : Nat := 16 * (4 * (h / 4) + i / 4) + 4 * (h % 4) + i % 4

/-- The control core is halted by a write of 0 to CORE_RUN: a running kernel ends with CORE_HALTED (04 R136). -/
def Work.haltCore (w : Work) : Work :=
  let w := { w with t := { w.t with ctl := { w.t.ctl with coreRun := false } } }
  if w.t.core.halted then { w with t := { w.t with core := { w.t.core with restart := false } } }
  else ({ w with t := { w.t with core := { w.t.core with halted := true, wfi := false, restart := false } } }).meetFault 8

/-- A write of 1 to CORE_RUN: a halted core runs from address 0 (03 R103). While a faulted kernel has not ended the core waits for its end. -/
def Work.runCore (w : Work) : Work :=
  let w := { w with t := { w.t with ctl := { w.t.ctl with coreRun := true } } }
  if w.t.core.halted then
    if w.t.kern.inKernel && w.t.kern.stopped then { w with t := { w.t with core := { w.t.core with restart := true } } }
    else { w with t := { w.t with core := { w.t.core with halted := false, wfi := false, pc := 0, resv := none, relAt := none } } }
  else w

/-- The read cache is invalidated in full (03 R97). -/
def Tile.dropCache (t : Tile) : Tile := { t with cache := [], cacheGen := t.cacheGen + 1 }

/-- CNT_CLR: the counters at 0x40 to 0x68 (03 R103). -/
def Tile.clearCounters (t : Tile) : Tile :=
  { t with ctl := { t.ctl with cnt := SMap.drop t.ctl.cnt fun o => decide (0x40 ≤ o) && decide (o ≤ 0x68) } }

/-- A write of TILE_CTL (03 R103). -/
def Work.tileCtl (w : Work) (v : Nat) : Work :=
  let w := { w with t := { w.t with ctl := { w.t.ctl with hawthorn := v.testBit 2, irqEn := bits v 4 3 } } }
  let w := if v.testBit 1 then { w with t := w.t.dropCache } else w
  let w := if v.testBit 3 then { w with t := w.t.clearCounters } else w
  if v.testBit 0 then w.runCore else w.haltCore

/-- TILE_CTL as read. -/
def Tile.ctlWord (t : Tile) : Nat := b2n t.ctl.coreRun + 4 * b2n t.ctl.hawthorn + 16 * t.ctl.irqEn

/-- TILE_STATUS (03 R103). -/
def Tile.status (t : Tile) : Nat :=
  let idle := t.ops.isEmpty && t.reads.isEmpty && t.writes.isEmpty && t.lands.isEmpty &&
    [0, 1, 2, 3].all fun e => (t.engine e).queue.isEmpty && (t.engine e).frames.isEmpty
  b2n idle + 2 * b2n t.kern.inKernel + 4 * b2n t.fifo.isEmpty + 8 * b2n t.core.halted + 16 * b2n t.core.wfi

/-- The 32-bit half at `off` of a tile's 4 KiB (control block below 0x100, schedule block above): value, and the tile after the read. -/
def Tile.read32 (t : Tile) (n off : Nat) : Nat × Tile :=
  let rc : Nat × Tile := (t.count off, { t with ctl := { t.ctl with cnt := SMap.set 0 t.ctl.cnt off 0 } })
  let h := t.hazard
  let v : Nat :=
    match off with
    | 0x00 => n + 256 * hedgeOf n + 65536 * tileX n + 16777216 * tileY n
    | 0x08 => t.ctlWord
    | 0x10 => t.status
    | 0x18 => t.ctl.fault
    | 0x20 => bits (t.ctl.winBase * 2 ^ 31) 0 32
    | 0x24 => bits (t.ctl.winBase * 2 ^ 31) 32 32
    | 0x28 => bits t.ctl.beatCount 0 32
    | 0x2C => bits t.ctl.beatCount 32 16
    | 0x100 => t.sched.kbeat % 2 ^ 32
    | 0x104 => t.sched.engaged + 16 * t.sched.ended + 256 * b2n t.sched.held + 512 * t.sched.holdCause + 65536 * t.sched.kfault
    | 0x108 => bits t.sched.holdBeats 0 32
    | 0x10C => bits t.sched.holdBeats 32 32
    | 0x114 => t.count off
    | 0x118 => t.count off
    | 0x11C => t.count off
    | 0x120 => SMap.get 0 t.sched.tally 0 + 65536 * SMap.get 0 t.sched.tally 1
    | 0x124 => SMap.get 0 t.sched.tally 2 + 65536 * SMap.get 0 t.sched.tally 3
    | 0x128 => SMap.get 0 t.sched.tally 4 + 65536 * SMap.get 0 t.sched.tally 5
    | 0x12C => SMap.get 0 t.sched.tally 6 + 65536 * SMap.get 0 t.sched.tally 7
    | 0x140 => b2n h.valid + 2 * h.reader + 8 * h.writer + 32 * h.space + 65536 * h.readCmd
    | 0x144 => h.readBeat
    | 0x148 => h.writeIssue
    | 0x14C => h.writeLand
    | 0x150 => h.location
    | 0x154 => h.writeCmd
    | 0x158 => bits h.kernelId 0 32
    | 0x15C => bits h.kernelId 32 32
    | _ => if 0x40 ≤ off ∧ off ≤ 0x68 then t.count off else 0
  if off = 0x110 ∨ (0x130 ≤ off ∧ off ≤ 0x13C) ∨ off = 0x160 ∨ off = 0x168 then rc else (v, t)

/-- A write of a tile's 4 KiB, 32 bits at `off`. -/
def Work.write32 (w : Work) (off v : Nat) : Work :=
  match off with
  | 0x08 => w.tileCtl v
  | 0x18 => { w with t := { w.t with ctl := { w.t.ctl with fault := w.t.ctl.fault - (w.t.ctl.fault &&& (v % 16)) } } }
  | 0x20 => { w with t := { w.t with ctl := { w.t.ctl with winBase := setBits w.t.ctl.winBase 0 1 (bits v 31 1) } } }
  | 0x24 => { w with t := { w.t with ctl := { w.t.ctl with winBase := setBits w.t.ctl.winBase 1 32 v } } }
  | 0x140 => if v.testBit 0 then { w with t := { w.t with hazard := { w.t.hazard with valid := false } } } else w
  | _ => w

/-! ## Access by a host -/

/-- Has a port posted writes that are not yet performed at their homes? Its later accesses and doorbells wait for them (09 R312). -/
def State.portWrites (s : State) (p : PortId) : Bool :=
  s.txns.any fun q => q.agent == .host p && q.kind == .write && q.stage != .responding

/-- Can a host reach the windows of port `p`: the module is Ready, the port's link is up, its PF is in D0 and its earlier writes have been performed? -/
def State.portUp (s : State) (p : PortId) : Bool := s.isReady && (s.port p).up && !(s.fn p 0).d3hot && !s.portWrites p

/-! ## Memory control (07 R219 to R236) -/

/-- RESULT of a region command (07 R220), in the order of its checks. -/
def Tier.regionResult (t : Tier) (k : Nat) (steward : Bool) (c : RegionCmd) : Nat :=
  let e := SMap.get ({} : Region) t.entries c.entry
  if !steward then 6
  else if 4 < c.op || (k = 8 && (c.op == 3 || c.op == 4)) then 7
  else if t.pending.isSome || t.conv.isSome then 1
  else if 31 < c.entry then 5
  else if (match c.op with
      | 1 => e.valid
      | 2 => !e.valid || (decide (k < 8) && !e.isSealed)
      | 3 => !e.valid || e.isSealed
      | _ => !e.valid || !e.isSealed) then 3
  else if c.op = 1 && (decide (c.limit < c.base) || decide (tierPages k ≤ c.limit) || (k == 8 && (c.limit + 1 - c.base) % 9 != 0)) then 4
  else if c.op = 1 && (List.range 32).any (fun i =>
      let x := SMap.get ({} : Region) t.entries i
      x.valid && decide (x.base ≤ c.limit) && decide (c.base ≤ x.limit)) then 2
  else 0

/-- A write of REGION_CMD; operation code 0 does nothing (07 R219). -/
def State.regionCmd (s : State) (k : Nat) (steward : Bool) (c : RegionCmd) : State :=
  if c.op = 0 then s
  else
    let t := s.tier k
    let r := t.regionResult k steward c
    s.setTier k { t with result := r, pending := if r = 0 then some c else t.pending }

/-- A page comes back into service: Laurel tries the replay it waits for (11 R387). -/
def State.onReturn (s : State) (k page : Nat) : State :=
  if s.laurel.serving = 2 && s.laurel.waitPage == some (k, page) then
    { s with laurel := { s.laurel with serving := 1, waitPage := none, replayDue := true, wantBoundary := true } }
  else s

/-- A write of PAGE_CMD (07 R232). -/
def State.pageCmd (s : State) (k : Nat) (steward : Bool) (op page : Nat) : State :=
  let t := s.tier k
  let note (t : Tier) (r : Nat) : Tier := { t with pageResult := r, lastPage := page }
  if op = 0 then s
  else if !steward then s.setTier k (note t 3)
  else if tierPages k ≤ page then s.setTier k (note t 2)
  else
    let st := t.page page
    match op with
    | 1 =>
      if st = 0 || st = 3 then (s.setTier k (note t 0)).tierWork k fun w => w.blight page 4 none
      else s.setTier k (note t 1)
    | 2 =>
      if st = 2 || (k = 8 && st = 1) then s.setTier k { (note t 0) with pages := SMap.set 0 t.pages page 3 }
      else s.setTier k (note t 1)
    | _ =>
      if st = 3 then (s.setTier k { (note t 0) with pages := SMap.set 0 t.pages page 0 }).onReturn k page
      else s.setTier k (note t 1)

/-- A region entry's register (07 R236). -/
def Region.word (r : Region) : Nat :=
  b2n r.valid + 2 * b2n r.isSealed + 4 * b2n r.converting + 8 * r.base + 2 ^ 18 * r.limit

/-- The 64-bit register of a memory control block that holds offset `off` (07 R235); none past its 16 KiB. -/
def Tier.reg (t : Tier) (k off : Nat) : Option Nat :=
  let o := off / 8 * 8
  if 0x4000 ≤ off then none
  else some
    (if o = 0 then k
     else if o = 0x10 then
       b2n t.pending.isSome + 2 * b2n t.conv.isSome +
         (match t.conv with | some c => 4 * c.entry + 128 * c.page | none => 0) + 2 ^ 22 * t.result
     else if o = 0x20 then t.pageResult + 4 * t.lastPage
     else if o = 0x28 then t.pages.length
     else if 0x100 ≤ o ∧ o < 0x200 then (SMap.get ({} : Region) t.entries ((o - 0x100) / 8)).word
     else if 0x2000 ≤ o then
       (List.range 32).foldl (fun v i => v + SMap.get 0 t.pages (4 * (o - 0x2000) + i) * 4 ^ i) 0
     else 0)

/-! ## Arbiter counters (10 R323) -/

/-- Number of the arbiter whose block lies at an offset of the arbiter counter area: 16 × router + output, 2048 + b for the others. -/
def arbAt (off : Nat) : Option Nat :=
  if off < 0x80000 then (if off % 0x1000 < 0x900 then some (16 * (off / 0x1000) + off % 0x1000 / 0x100) else none)
  else if off < 0x80000 + 26 * 0x1000 ∧ off % 0x1000 < 0x100 then some (2048 + (off - 0x80000) / 0x1000) else none

def State.arb (s : State) (a : Nat) : Arb := SMap.get {} s.arbs a

/-- A 32-bit half of an arbiter's counters. LONGEST_WAIT is cleared by its read. -/
def State.arbRead (s : State) (a off : Nat) : Nat × State :=
  let r := SMap.get {} (s.arb a).reqs (off / 0x20)
  let o := off % 0x20
  if o < 8 then (bits r.grants (8 * o) 32, s)
  else if o < 16 then (bits r.waitBeats (8 * (o - 8)) 32, s)
  else if o = 16 then
    let arb := s.arb a
    let x : Arb := { arb with reqs := SMap.set {} arb.reqs (off / 0x20) { r with longest := 0 } }
    (r.longest, { s with arbs := SMap.set {} s.arbs a x })
  else (0, s)

/-! ## Privet registers (08 R243, R244) -/

/-- Queue empty, nothing running. -/
def PUnit.idle (u : PUnit) : Bool := u.queue.isEmpty && u.running.isNone

/-- IDLE: besides, every write of the unit is acknowledged (08 R244). -/
def State.unitIdle (s : State) (u : Nat) : Bool :=
  (s.unit u).idle && !(s.txns.any fun q => match q.agent with | .unit v => v.val == u | _ => false)

/-- A 32-bit half of a unit's command register area. -/
def PUnit.read32 (x : PUnit) (idle : Bool) (u off : Nat) : Nat × PUnit :=
  let paused := (match x.running with | some r => r.paused | none => false)
  if off = 0x28 then (x.pauseLongest, { x with pauseLongest := 0 })
  else
    (match off with
     | 0x00 => u
     | 0x08 => b2n idle + 2 * b2n x.running.isSome + 4 * b2n paused + 8 * b2n x.tokenWait + 16 * b2n x.load
         + 32 * x.queue.length + 65536 * x.lastStatus
     | 0x0C => x.lastTag
     | 0x10 => b2n x.load
     | 0x18 => x.loadAddr
     | 0x20 => x.crc
     | 0x24 => b2n x.crcValid
     | _ => if 0x80 ≤ off ∧ off < 0xC0 then fieldAt x.lastRecord (off - 0x80) 4
            else if 0xC0 ≤ off ∧ off ≤ 0xFC then SMap.get 0 x.cnt off else 0, x)

/-- Loading ends: STORE_CRC will be computed over the 1,024 words (08 R258). -/
def PUnit.storeCrc (u : PUnit) : Nat := crc32 ((List.range 1024).flatMap fun i => leBytes 4 (SMap.get 0 u.store i))

/-- ABORT of a unit: every PART is affected (08 R282). -/
def State.unitAbort (s : State) (u : Nat) : State :=
  let s := s.discardUnit (fun _ => true) u
  { s with txns := s.txns.map fun q =>
      if q.stage == .atHome && unitCommandAt q.dest.addr == some u && q.data.bytes.length == 64 && !(s.unit u).load then { q with stage := .responding } else q }

/-- A write of UNIT_CTL from the steward port (08 R244, R258). While owner signatures are enforced a 1 in LOAD is ignored (17 R518). -/
def State.unitCtl (s : State) (u v : Nat) : State :=
  let may := s.odNow 0x8000 1 != 1
  let s := s.modUnit u fun x =>
    let x := if v.testBit 1 then { x with cnt := [] } else x
    if v.testBit 0 then (if s.unitIdle u && may then { x with load := true } else x)
    else if x.load then ({ x with load := false, crcValid := false, crcDue := true }).next (s.unitTs u) else x
  if v.testBit 2 then s.unitAbort u else s

/-- A word of the unit buffer as read from outside: poisoned where uncorrectable (08 R254). -/
def PUnit.bufRead (x : PUnit) (a n : Nat) : Piece × PUnit :=
  let ws := (List.range ((a % 8 + n + 7) / 8)).map (a / 8 + ·)
  let bad := ws.any fun w => let c := SMap.get 0 x.bufWords w; c == 1 || c == 3
  let x := (x.bump 0xE8 (ws.countP fun w => SMap.get 0 x.bufWords w == 2)).bump 0xEC (ws.countP fun w => SMap.get 0 x.bufWords w == 3)
  (⟨x.buffer.read a n, bad⟩, x)

/-- A write of the unit buffer (08 R254): a part of a word is a read-modify-write, treated as the scratchpad's (03 R88). -/
def PUnit.bufWrite (x : PUnit) (a : Nat) (d : Piece) : PUnit :=
  let n := d.bytes.length
  if n = 0 then x
  else
    let x := (List.range ((a + n - 1) / 8 + 1 - a / 8)).foldl (fun x i =>
      let w := a / 8 + i
      let whole := decide (a ≤ 8 * w) && decide (8 * w + 8 ≤ a + n)
      let old := SMap.get 0 x.bufWords w
      let x := if whole then x else (x.bump 0xE8 (b2n (old == 2))).bump 0xEC (b2n (old == 3))
      let stays := !whole && (old == 1 || old == 3)
      { x with bufWords := SMap.set 0 x.bufWords w (if d.poison || stays then 1 else 0) }) x
    { x with buffer := x.buffer.write a d.bytes }

/-- The uncorrectable words that a write of `n` bytes covers in part, and so reads first (08 R254, 15 R478). -/
def PUnit.partUncorr (x : PUnit) (a n : Nat) : List Nat :=
  if n = 0 then []
  else ((List.range ((a + n - 1) / 8 + 1 - a / 8)).map (a / 8 + ·)).filter fun w =>
    SMap.get 0 x.bufWords w == 3 && !(decide (a ≤ 8 * w) && decide (8 * w + 8 ≤ a + n))

/-- An uncorrectable word of a unit's buffer is found: its event (15 R478). -/
def State.bufUncorr (s : State) (u a n : Nat) : State :=
  if n = 0 then s
  else
    let bad := ((List.range ((a % 8 + n + 7) / 8)).map (a / 8 + ·)).filter fun w => SMap.get 0 (s.unit u).bufWords w == 3
    bad.foldl (fun s w => s.post (Sys2Proof.Machine.sramUncorr (0x80 + u / 64) 5 (65536 * u + 8 * w))) s

/-- A unit's buffer is read from outside. -/
def State.bufRead (s : State) (u a n : Nat) : Piece × State :=
  let s := s.bufUncorr u a n
  let r := (s.unit u).bufRead a n
  (r.1, s.setUnit u r.2)

/-- A unit's buffer is written from outside. -/
def State.bufWrite (s : State) (u a : Nat) (d : Piece) : State :=
  ((s.unit u).partUncorr a d.bytes.length).foldl (fun s w => s.post (Sys2Proof.Machine.sramUncorr (0x80 + u / 64) 5 (65536 * u + 8 * w)))
    (s.modUnit u fun x => x.bufWrite a d)

/-! ## Laurel's tables (05 R167, 11 R355, R361, R365, R370) -/

/-- A scale slot's record. -/
def Slot.bytes (x : Slot) : List Byte :=
  leBytes 4 (x.exp.toNat + 256 * x.fmt + 4096 * x.cls + 32768 * b2n x.kOverride + 65536 * x.kSlot + 2 ^ 21 * b2n x.folded + 2 ^ 22 * x.histCount)
    ++ leBytes 4 x.stepMax ++ zeros 4 ++ leBytes 4 x.updates ++ (List.range 16).flatMap (fun i => leBytes 4 (x.hist.getD i 0)) ++ zeros 48

/-- A sequence handle (11 R360). -/
def Seq.handle (x : Seq) (q : Nat) : Nat := q + 4096 * x.gen

/-- A sequence-table entry: zero while FREE, but for its HANDLE (11 R361). -/
def Seq.bytes (x : Seq) (q : Nat) : List Byte :=
  if x.state = 0 then zeros 4 ++ leBytes 4 (x.handle q) ++ zeros 120
  else
    leBytes 1 x.state ++ leBytes 1 (b2n x.lc + 2 * b2n x.held + 4 * b2n x.cancel + 8 * b2n x.noReuse + 16 * b2n x.noInsert + 32 * b2n x.autoPaused)
      ++ leBytes 1 x.part ++ leBytes 1 x.kvFmt ++ leBytes 4 (x.handle q) ++ leBytes 2 (x.row.getD 0xFFFF) ++ leBytes 2 x.specEpoch
      ++ leBytes 4 x.len ++ leBytes 4 x.next ++ leBytes 4 x.promptLen ++ leBytes 4 x.maxNew ++ leBytes 4 x.generated
      ++ leBytes 8 x.promptAddr ++ leBytes 8 x.seed ++ leBytes 4 x.temp ++ leBytes 2 x.topK ++ leBytes 1 x.draftCount ++ zeros 1
      ++ leBytes 4 x.stop ++ leBytes 4 x.goal ++ (List.range 7).flatMap (fun i => leBytes 4 (x.drafts.getD i 0))
      ++ leBytes 2 x.draftEpoch ++ leBytes 2 x.shared ++ leBytes 8 x.lastDelivery ++ leBytes 8 x.since ++ leBytes 8 x.admitStep
      ++ leBytes 1 x.endReason ++ zeros 7

/-- A KV Block Directory entry. -/
def Ext.bytes (x : Ext) : List Byte :=
  leBytes 8 (x.state + 8 * x.tier + 128 * x.page + 2 ^ 22 * x.fmt + 2 ^ 26 * x.refs + 2 ^ 39 * b2n x.indexed + 2 ^ 40 * x.ext) ++ leBytes 4 x.gen ++ zeros 4

/-- The input grain of a step entry. -/
def Entry.bytes (x : Entry) : List Byte :=
  leBytes 4 x.handle ++ leBytes 1 (b2n x.prefill + 2 * b2n x.sample + 4 * b2n x.spec) ++ leBytes 1 x.kvFmt ++ leBytes 2 x.row ++ leBytes 4 x.pos
    ++ leBytes 2 x.ntok ++ leBytes 2 (x.seq + 1)
    ++ (if x.prefill then leBytes 8 x.promptAt ++ zeros 24 else (List.range 8).flatMap fun i => leBytes 4 (x.inputs.getD i 0))
    ++ leBytes 8 x.seed ++ leBytes 4 x.temp ++ leBytes 2 x.topK ++ leBytes 2 (cdiv (x.pos + x.ntok) 64)

/-- The step frame's header. -/
def StepSt.header (x : StepSt) : List Byte :=
  leBytes 8 x.num ++ leBytes 2 x.entries.length ++ leBytes 2 x.rows ++ leBytes 1 (b2n x.replay) ++ zeros 3 ++ leBytes 8 x.release ++ zeros 40

/-- The 64 bytes of Laurel's area at a grain-aligned offset; none outside the table of R355. -/
def State.laurelGrain (s : State) (o : Nat) : Option Piece :=
  let l := s.laurel
  if o < 0x40 then some ⟨l.step.header, l.step.lost⟩
  else if 0x100 ≤ o ∧ o < 0x8100 then
    let e := (o - 0x100) / 128
    if (o - 0x100) % 128 = 0 then
      some ⟨(match l.step.entries[e]? with | some x => x.bytes | none => zeros 64), l.step.lost⟩
    else some (SMap.get ⟨zeros 64, false⟩ l.step.outs e)
  else if 0x10000 ≤ o ∧ o < 0x90000 then
    let q := (o - 0x10000) / 128
    some ⟨(((s.seq q).bytes q).drop ((o - 0x10000) % 128)).take 64, false⟩
  else if 0x100000 ≤ o ∧ o < 0x200000 then
    let i := (o - 0x100000) / 16
    some ⟨(List.range 4).flatMap fun j => (SMap.get {} l.kvdir (i + j) : Ext).bytes, false⟩
  else if 0x200000 ≤ o ∧ o < 0x220000 then
    let x := SMap.get {} l.slots ((o - 0x200000) / 128)
    some ⟨(x.bytes.drop ((o - 0x200000) % 128)).take 64, x.lost⟩
  else none

/-- A write of bytes of a step entry's output grain (11 R355, R370). -/
def State.outWrite (s : State) (o : Nat) (d : Piece) : State :=
  if 0x100 ≤ o ∧ o < 0x8100 ∧ (o - 0x100) % 128 / 64 = 1 then
    let e := (o - 0x100) / 128
    let st := s.laurel.step
    let old := SMap.get ⟨zeros 64, false⟩ st.outs e
    let g : Piece := ⟨putAt old.bytes (o % 64) d.bytes, (old.poison && decide (d.bytes.length < 64)) || d.poison⟩
    { s with laurel := { s.laurel with step := { st with outs := SMap.set ⟨zeros 64, false⟩ st.outs e g } } }
  else s

/-! ## The control range -/

/-- First offset of Laurel's area in the control range. -/
def laurelBase : Nat := 0x200000000

/-- A 32-bit half of the die control window (10 R322): none where nothing is mapped. -/
def State.window32 (s : State) (off : Nat) : Option (Piece × State) :=
  let ok (v : Nat) (s : State) : Option (Piece × State) := some (⟨leBytes 4 v, false⟩, s)
  if off < 0x80000 then
    let t := off / 0x1000
    if off % 0x1000 < 0x200 then
      let r := (s.tile t).read32 t (off % 0x1000)
      ok r.1 (s.setTile t r.2)
    else none
  else if 0x100000 ≤ off ∧ off < 0x190000 then
    let k := (off - 0x100000) / 0x10000
    ((s.tier k).reg k (off % 0x10000)).bind fun v => ok (bits v (8 * (off % 8)) 32) s
  else if 0x200000 ≤ off ∧ off < 0x300000 then
    (arbAt (off - 0x200000)).bind fun a => let r := s.arbRead a (off % 0x100); ok r.1 r.2
  else if 0x4000000 ≤ off ∧ off < 0x4020000 then
    let u := (off - 0x4000000) / 0x100
    let r := (s.unit u).read32 (s.unitIdle u) u (off % 0x100)
    ok r.1 (s.setUnit u r.2)
  else if 0x5000000 ≤ off ∧ off < 0x7000000 then
    some (s.bufRead ((off - 0x5000000) / 0x10000) (off % 0x10000) 4)
  else none

/-- Is an offset of the control range assigned (07 R206, 08 R255)? -/
def State.controlMapped (s : State) (off : Nat) (write : Bool) : Bool :=
  if laurelBase ≤ off then
    let o := off - laurelBase
    if write then (decide (0x100 ≤ o) && decide (o < 0x8100) && (o - 0x100) % 128 / 64 == 1)
    else (s.laurelGrain (o / 64 * 64)).isSome
  else if 0x4100000 ≤ off ∧ off < 0x4180000 then write
  else (s.window32 (off / 4 * 4)).isSome

/-- Bytes of the control range as an agent of the die reads them, within one grain. -/
def State.controlRead (s : State) (off n : Nat) : Piece × Nat × State :=
  if laurelBase ≤ off then
    match s.laurelGrain ((off - laurelBase) / 64 * 64) with
    | some g => (⟨(g.bytes.drop (off % 64)).take n, g.poison⟩, if g.poison then 5 else 0, s)
    | none => (⟨noData n, true⟩, 1, s)
  else if 0x5000000 ≤ off ∧ off < 0x7000000 then
    -- a word of a unit's buffer is checked once for the whole access (08 R254)
    let r := s.bufRead ((off - 0x5000000) / 0x10000) (off % 0x10000) n
    (r.1, if r.1.poison then 5 else 0, r.2)
  else
    let lo := off / 4 * 4
    let r := (List.range ((off + n - lo + 3) / 4)).foldl (fun (acc : List Byte × Bool × Bool × State) i =>
      match acc.2.2.2.window32 (lo + 4 * i) with
      | some (p, s) => (acc.1 ++ p.bytes, acc.2.1 || p.poison, acc.2.2.1, s)
      | none => (acc.1 ++ noData 4, true, true, acc.2.2.2)) ([], false, false, s)
    (⟨(r.1.drop (off % 4)).take n, r.2.1⟩, if r.2.2.1 then 1 else if r.2.1 then 5 else 0, r.2.2.2)

/-- Who writes a register: a host through a port's BAR0, or an agent of the die. -/
inductive Writer where
  | host (p : PortId)
  | die
  deriving DecidableEq, Repr

/-- Is the writer the steward's port? -/
def State.isSteward (s : State) (w : Writer) : Bool := w == .host s.stew.port

/-- REGION_CMD's fields (07 R235). -/
def regionFields (v : Nat) : RegionCmd := ⟨bits v 0 3, bits v 3 5, bits v 8 15, bits v 23 15⟩

/-- A host's write of a buffer whose stack is in Doze waits at the stack port (08 R282). -/
def State.askHost (s : State) (who : Writer) (off n v : Nat) : State :=
  match who with
  | .host p => s.ask { id := 0, agent := .host p, kind := .write, dest := ⟨none, controlBase + off⟩, len := n, data := ⟨leBytes n v, false⟩, stage := .atHome, purpose := .posted }
  | .die => s

/-- A write of a register of the control window: `n` is 4 or 8 bytes, value `v` (10 R320, R343). A 64-bit command register takes effect with a write that
covers its bit 0; a 4-byte write leaves the upper half of such a command zero (log 20). -/
def State.windowWrite (s : State) (who : Writer) (off n v : Nat) : State :=
  let hostOther := (match who with | .host p => p != s.stew.port | .die => false)
  let halves := if n = 8 then [(off, v % 2 ^ 32), (off + 4, v / 2 ^ 32)] else [(off, v % 2 ^ 32)]
  if off < 0x80000 then
    if 0x200 ≤ off % 0x1000 then s.modCount 0x7209 1 1
    else if hostOther then s.modCount 0x4200 2 1
    else
      let t := off / 0x1000
      s.work t fun w => halves.foldl (fun w h => w.write32 (h.1 % 0x1000) h.2) w
  else if 0x100000 ≤ off ∧ off < 0x190000 then
    let k := (off - 0x100000) / 0x10000
    let o := off % 0x10000
    if 0x4000 ≤ o then s.modCount 0x7209 1 1
    else if o = 8 then s.regionCmd k (s.isSteward who) (regionFields v)
    else if o = 0x18 then s.pageCmd k (s.isSteward who) (bits v 0 2) (bits v 2 15)
    else if hostOther then s.modCount 0x4200 2 1 else s
  else if 0x200000 ≤ off ∧ off < 0x300000 then
    if (arbAt (off - 0x200000)).isNone then s.modCount 0x7209 1 1
    else if hostOther then s.modCount 0x4200 2 1 else s
  else if 0x4000000 ≤ off ∧ off < 0x4020000 then
    let u := (off - 0x4000000) / 0x100
    let o := off % 0x100
    if o = 0x10 then (if s.isSteward who then s.unitCtl u v else s)
    else if o = 0x18 then (if s.isSteward who then s.modUnit u fun x => { x with loadAddr := v % 1024 } else s)
    else if hostOther then s.modCount 0x4200 2 1
    else if 0x40 ≤ o ∧ o < 0x80 then s.modUnit u fun x => x.bump 0xF8 1
    else s
  else if 0x4100000 ≤ off ∧ off < 0x4180000 then
    if hostOther then s.modCount 0x4200 2 1
    else
      let k := (off - 0x4100000) / 0x10000
      if (s.tier k).doze then s.askHost who off n v
      else (List.range 64).foldl (fun s p => s.bufWrite (64 * k + p) (off % 0x10000) ⟨leBytes n v, false⟩) s
  else if 0x5000000 ≤ off ∧ off < 0x7000000 then
    if hostOther then s.modCount 0x4200 2 1
    else if (s.tier ((off - 0x5000000) / 0x400000)).doze then s.askHost who off n v
    else s.bufWrite ((off - 0x5000000) / 0x10000) (off % 0x10000) ⟨leBytes n v, false⟩
  else s.modCount 0x7209 1 1

/-- An atomic on a word or words of the control range, at the block that holds them: a unit's buffer, Laurel's tables, registers (09 R285, R306): old value, status, and the
state; none while the units of the buffer's stack are in Doze, where it waits (08 R282). -/
def State.controlAtomic (s : State) (off n : Nat) (f : List Byte → List Byte) (poison : Bool) : Option (Piece × Nat × State) :=
  if !(s.controlMapped off false && s.controlMapped off true) then some (⟨noData n, true⟩, 1, s.modCount 0x7209 1 1)
  else if decide (0x5000000 ≤ off) && decide (off < 0x7000000) && (s.tier ((off - 0x5000000) / 0x400000)).doze then none
  else
    let r := s.controlRead off n
    let s := r.2.2
    if r.1.poison || r.2.1 != 0 then some (⟨r.1.bytes, true⟩, if r.2.1 = 0 then 5 else r.2.1, s)
    else
      let d := f r.1.bytes
      let s :=
        if laurelBase ≤ off then s.outWrite (off - laurelBase) ⟨d, poison⟩
        else if 0x5000000 ≤ off ∧ off < 0x7000000 then s.bufWrite ((off - 0x5000000) / 0x10000) (off % 0x10000) ⟨d, poison⟩
        else (List.range (n / 4)).foldl (fun s i => s.windowWrite .die (off + 4 * i) 4 (fieldAt d (4 * i) 4)) s
      some (r.1, 0, s)

/-! ## Work in the device (02 R67, 14 R466) -/

/-- OPCODE of a descriptor (10 R331). -/
def HostOp.opcode (o : HostOp) : Nat := fieldAt o.desc 0 1

/-- Is a tile's idle latch set: nothing in an engine or its queue? -/
def Tile.quiet (t : Tile) : Bool := t.status % 2 == 1

/-- Is an access a maintenance access: one of the island, or of a host through the die control window (04 R142)? -/
def Txn.maintains (q : Txn) : Bool :=
  match q.agent with
  | .housekeeping => true
  | .host _ => (match placeOf q.dest.addr with | .control _ => true | _ => false)
  | _ => false

/-- Does an access keep step-quiet from being raised? A write that its home has still to perform does (09 R314); and one that keeps a block of R67's list from being
empty, on the mesh, at a Briar port, at a board-tier half or one of Laurel's, which no maintenance access does (04 R142). -/
def Txn.busy (q : Txn) : Bool :=
  (q.kind != .read && q.stage.before) ||
  (!q.maintains && (q.stage == .flying || q.stage == .responding || q.agent == .laurel || (q.stage == .queued && (match q.agent with | .remote _ => true | _ => false)) ||
    (q.stage == .atHome && (match placeOf q.dest.addr with | .tier k _ => k == 8 | _ => false))))

/-- Are the blocks that R67 lists empty? Launch packets, end notices, folds and fault notices are on the mesh; a launcher, a queue selector or Laurel, holds a kernel
until it completes. -/
def State.allEmpty (s : State) : Bool :=
  s.tiles.all (fun t => t.2.quiet) && !(s.txns.any Txn.busy) && s.hedges.all (fun h => h.2.streams.isEmpty && h.2.waiting.isEmpty)
    && s.launches.isEmpty && s.launchPkts.isEmpty && s.notices.isEmpty
    && !(s.ops.any fun o => o.stage == .running && decide (1 ≤ o.opcode) && decide (o.opcode ≤ 3))
    && s.folds.isEmpty && s.unitNotices.isEmpty && s.units.all (fun u => s.unitIdle u.1) && s.briar.ports.all (fun b => b.2.inbox.isEmpty)

/-- A packet of a request or of a response, where the port states and identities of the links' own upkeep hold no work (12 R404). -/
def BriarPkt.carries (p : BriarPkt) : Bool := decide (p.ty < 6)

/-- As `BriarPkt.carries`, of a slot. -/
def BSlot.carries (x : BSlot) : Bool := x.flow.any fun f => decide (f.1 < 6)

/-- Does a Briar port hold work: packets that wait, that are being sent or that the far end has not acknowledged? -/
def BriarPort.working (b : BriarPort) : Bool :=
  (b.queue ++ b.transit ++ b.inbox).any BriarPkt.carries || (b.tx ++ b.replay.flatMap (·.slots)).any BSlot.carries || b.cur.any fun r => r.pkt.carries

/-- Is work in flight: does a listed block, a launcher, a port or a Briar port hold any (14 R466)? -/
def State.holdsWork (s : State) : Bool :=
  !s.allEmpty || (s.txns.any fun q => q.agent != .housekeeping) || !s.ops.isEmpty || !s.hostReads.isEmpty || s.laurel.step.running || s.briar.ports.any fun b => b.2.working

/-- Are the 64 units of a stack idle, with empty queues (14 R467)? -/
def State.unitsIdle (s : State) (k : Nat) : Bool := ((List.range 64).map (64 * k + ·)).all s.unitIdle

/-- What was busy up to now, or is from now on. -/
def State.busyAfter (s s' : State) : SMap Nat :=
  let m := if s.holdsWork || s'.holdsWork then SMap.set 0 s.power.busyAt 8 s.ts else s.power.busyAt
  (List.range 8).foldl (fun m k => if s.unitsIdle k && s'.unitsIdle k then m else SMap.set 0 m k s.ts) m

/-- The power state after a command of the working parts: Idle and Doze are left with the first handshake of new work (14 R466). -/
def State.powerAfter (s s' : State) : Power :=
  { s.power with
    pstate := if (s.power.pstate = 2 ∨ s.power.pstate = 3) ∧ s'.holdsWork = true then 1 else s.power.pstate
    busyAt := s.busyAfter s', paramWrites := s'.power.paramWrites }

/-- Has nothing held work for 1 µs (14 R466)? -/
def State.restDue (s : State) : Bool := !s.holdsWork && decide (SMap.get 0 s.power.busyAt 8 + 1000 ≤ s.ts)

/-- Have a stack's 64 units been idle for 100 µs (14 R467)? -/
def State.dozeDue (s : State) (k : Nat) : Bool := s.unitsIdle k && decide (SMap.get 0 s.power.busyAt k + 100000 ≤ s.ts)

/-- As `still`, for a command of the working parts: the always-on island's power, pins and thermal control are not theirs to write. -/
def State.inner (s s' : State) : Host.Outcome State Fault Refusal :=
  let s' := s.unlessBlocked (s.settle s')
  .next { s' with pending := s.pending, ts := s.ts, power := s.powerAfter s', hk := s.hk }

end Sys2Proof.Machine
end

