-- ==== Sys2Proof/Machine/Memory.lean ====
section
/-!
DEFINITION. Meanings of the memory family: accesses at their homes, release tags, scrubbing, refresh, region and page commands,
conversion (07 R211 to R236, 08 R278 to R281, 09 R285 to R308).
-/

namespace Sys2Proof.Machine

/-! ## Release tags and scopes (09 R295, R299, R304) -/

def Agent.tile? : Agent → Option Nat
  | .engine t _ => some t.val
  | .core t => some t.val
  | _ => none

/-- Hedge of an agent: its tile's, or the sequencer's. -/
def Agent.hedge? : Agent → Option Nat
  | .engine t _ => some (hedgeOf t.val)
  | .core t => some (hedgeOf t.val)
  | .hedge h => some h.val
  | _ => none

/-- An agent of the Hornbeam die (09 R295, code 2). -/
def Agent.onDie : Agent → Bool
  | .unit _ => false
  | .host _ => false
  | .remote _ => false
  | _ => true

/-- Does a scope of agent `a` at position `p` contain agent `b` at position `q`? -/
def scopeHas (scope p : Nat) (a : Agent) (q : Nat) (b : Agent) : Bool :=
  match scope with
  | 0 => p == q && a.tile?.isSome && a.tile? == b.tile?
  | 1 => p == q && a.hedge?.isSome && a.hedge? == b.hedge?
  | 2 => p == q && b.onDie
  | 3 => p == q
  | _ => true

/-- Set a grain's entry in a release tag table of `cap` entries, or remove it: the least recently written entry gives way. -/
def tagUpdate (cap : Nat) (l : List (Nat × RelTag)) (g : Nat) (t : Option RelTag) : List (Nat × RelTag) :=
  let rest := l.filter (·.1 != g)
  match t with
  | none => rest
  | some x => (if cap ≤ rest.length then rest.drop 1 else rest) ++ [(g, x)]

/-- The tag of a release write: its scope and who released. -/
def State.relTag (s : State) (q : Txn) : Option RelTag :=
  q.rel.map fun c => ⟨c, (match q.agent with | .remote p => p | _ => s.briar.pos), q.agent⟩

/-- An acquire has read a grain with an entry: a pair that does not synchronise is counted against its tile (09 R304, R305). -/
def State.checkTag (s : State) (q : Txn) (t : Option RelTag) : State :=
  match q.acq, t with
  | some c, some r =>
    let p := (match q.agent with | .remote p => p | _ => s.briar.pos)
    if scopeHas r.scope r.pos r.who p q.agent && scopeHas c p q.agent r.pos r.who then s
    else
      let s := match q.agent.tile? with
        | some t => s.modTile t fun x => x.bump cScopeMismatch 1
        | none => s
      let s := s.modCount 0x7300 1 1
      if r.pos = s.briar.pos then s else s.modCount 0x7300 2 1
  | _, _ => s

/-- Tags of a tier's grain after a write. -/
def State.tierTag (s : State) (k grain : Nat) (t : Option RelTag) : State :=
  let x := s.tier k
  -- the two halves of the board tier have a table each
  let same (g : Nat) : Bool := k != 8 || (decide (g < 0x18000000) == decide (grain < 0x18000000))
  let mine := x.tags.filter fun y => same y.1
  let other := x.tags.filter fun y => !same y.1
  s.setTier k { x with tags := other ++ tagUpdate 1024 mine grain t }

/-! ## Accesses that their home performs -/

/-- The access `id` of a kind, when it is at its home on this module and nothing of its agent precedes it there. -/
def State.ready (s : State) (id : Nat) (want : TxKind → Bool) : Option Txn :=
  (s.txn? id).filter fun q => q.stage == .atHome && want q.kind && !s.behind q

/-- An access has been performed: its response leaves the home, behind those that left before (03 R76). -/
def State.respond (s : State) (id : Nat) (data : Piece) (status : Nat) (unchecked : Bool) (tag : Option RelTag) : State :=
  match s.txn? id with
  | none => s
  | some q =>
    let r := { q with data := data, status := if q.status = 0 then status else q.status, unchecked := unchecked, tag := tag, stage := .responding }
    if q.dest.module.isSome then { s with txns := s.txns.filter (·.id != id) ++ [{ r with pkt := id + 1 }] }
    else
      -- the packet's grains that were served before it leave with it (03 R77)
      let mate (x : Txn) : Bool := x.stage == .responding && x.pkt == q.pkt
      { s with txns := (s.txns.filter fun x => x.id != id && !mate x) ++ (s.txns.filter fun x => x.id != id && mate x) ++ [r] }

/-! ## HOME_READ, HOME_WRITE, HOME_ATOMIC -/

/-- Errors that a read of Laurel's tables meets (15 R481): a corrected word, or an uncorrectable one. -/
def State.laurelErr (s : State) (off : Nat) (u : Upset) : State :=
  if laurelBase ≤ off then
    let e := laurelEntry (off - laurelBase)
    let s := s.sramCorr u.devCorr
    if u.devBad then s.laurelHit e.1 e.2 else s
  else s

/-- A Region Table entry is lost with both its copies: it is invalid, and no conversion goes on (15 R480). -/
def Tier.loseEntry (t : Tier) (e : Nat) : Tier :=
  { t with
    entries := SMap.set {} t.entries e {}
    conv := t.conv.filter (·.entry != e)
    pending := t.pending.filter fun c => c.entry != e || c.op == 1 }

/-- A release tag whose parity is bad is dropped (15 R478). -/
def State.tagErr (s : State) (k off : Nat) (u : Upset) : State := if u.tag then s.tierTag k (off / 64) none else s

/-- Errors that an access meets in the table entry of its page (15 R478, R480): one copy is rewritten from the other; with both the entry is lost. -/
def State.entryErr (s : State) (k off : Nat) (u : Upset) : State :=
  let s := s.tagErr k off u
  match (s.tier k).entryOf (pageOf off) with
  | none => s
  | some (e, _) =>
    match u.entry.val with
    | 0 => s
    | 1 => s.sramCorr 1
    | 2 => s.sramUncorr (0x80 + k) 10 e
    | _ =>
      let s := (s.sramUncorr (0x80 + k) 10 e).sramUncorr (0x80 + k) 10 e
      (s.setTier k ((s.tier k).loseEntry e)).post { code := 0x26, source := 0x80 + k, args := [k, e] }

/-! ## What a memory port lets through (07 R221, R239, 08 R260) -/

/-- Is the access at its home in tier `k`, with no page conversion, no earlier access and no empty bucket before it? -/
def State.eligible (s : State) (q : Txn) (k : Nat) : Bool :=
  q.stage == .atHome &&
    (match placeOf q.dest.addr with
     | .tier j off => j == k && !s.behind q && !s.converting k off && s.mayAccess q (tierBucket k off)
     | _ => false)

/-- Does an atomic wait at a pseudo-channel of a stack? -/
def State.atomicWaits (s : State) (k pch : Nat) : Bool :=
  s.txns.any fun x => (match x.kind with | .combine _ => true | _ => false) && pchOf (tierOffset x.dest.addr) == pch && s.eligible x k

/-- Does a unit ask for its pseudo-channel: its command stands before a core-die access, neither paused nor waiting for tokens? -/
def State.unitAsks (s : State) (k pch : Nat) : Bool :=
  let x := s.unit (64 * k + pch)
  (match x.running with | some r => !r.computed && !r.paused && r.next.isSome | none => false) && !x.tokenWait

/-- Has a bank's refresh been put off as far as it may be (08 R278)? It goes first (R260). -/
def State.refreshFirst (s : State) (k off : Nat) : Bool := k != 8 && decide (4 ≤ SMap.get 0 (s.tier k).refresh (64 * pchOf off + bank64 off))

/-- Does an access of the Hornbeam die wait at a pseudo-channel, with nothing but the rotation before it? -/
def State.dieWaits (s : State) (k pch : Nat) : Bool :=
  s.txns.any fun x => s.eligible x k && pchOf (tierOffset x.dest.addr) == pch && !s.refreshFirst k (tierOffset x.dest.addr)

/-- Offset of the grain that a conversion works on. -/
def Tier.convAt (t : Tier) : Nat := match t.conv with | some c => c.page * 0x200000 + 64 * c.grain | none => 0

/-- Is the next access at a pseudo-channel the conversion's: where a unit asks, it has at least one of every four (07 R223)? -/
def State.convFirst (s : State) (k pch : Nat) : Bool := (s.tier k).conv.isSome && pchOf (s.tier k).convAt == pch && decide (3 ≤ (s.tier k).convWait)

/-- An access is granted at a pseudo-channel beside the conversion there. -/
def Tier.beside (t : Tier) (pch n : Nat) : Tier := if t.conv.isSome && pchOf t.convAt == pch then { t with convWait := t.convWait + n } else t

/-- The base-die scheduler of the pseudo-channel (08 R260): a refresh that can be postponed no longer, then atomics and the conversion's share, then the die and the
unit, which take turns where both ask (03 R104; log 95). -/
def State.scheduled (s : State) (k off : Nat) (atomic : Bool) : Bool :=
  k == 8 || (!s.refreshFirst k off &&
    (atomic || (!s.atomicWaits k (pchOf off) &&
      !(s.unitAsks k (pchOf off) && (SMap.get 0 (s.tier k).lastGrant (pchOf off) == 1 || s.convFirst k (pchOf off))))))

/-- May an access be performed now at a tier? -/
def State.served? (s : State) (q : Txn) (k off : Nat) (atomic : Bool) : Bool :=
  !s.converting k off && s.mayAccess q (tierBucket k off) && s.scheduled k off atomic

/-- A grant at a tier's port: the packet is charged, and the turn is the unit's. -/
def State.granted (s : State) (q : Txn) (k off : Nat) : State :=
  let s := s.payPacket q (tierBucket k off)
  if k = 8 then s
  else
    let t := s.tier k
    let t := if s.unitAsks k (pchOf off) then t.beside (pchOf off) 1 else t
    s.setTier k { t with lastGrant := SMap.set 0 t.lastGrant (pchOf off) 1 }

/-- An access refused at a check page counts as one to an unmapped address does (07 R207, R226). -/
def State.checkPage (s : State) (status : Nat) : State := if status = 6 then s.modCount 0x7209 1 1 else s

/-- A read is served at its home; one that meets the page being converted waits (07 R221). -/
def State.homeRead (s : State) (id : Nat) (u : Upset) : State :=
  match s.ready id (· == .read) with
  | none => s
  | some q =>
    match placeOf q.dest.addr with
    | .tier k off =>
      if !s.served? q k off false then s
      else
        let s := (s.granted q k off).entryErr k off u
        let r := if q.fill then s.readHome k (off / 64 * 64) 64 u else s.readHome k off q.len u
        let tag := ((s.tier k).tags.find? (·.1 == off / 64)).map (·.2)
        let s := r.2.2.2.checkPage r.2.1
        let s := match q.agent with | .remote _ => s | _ => s.checkTag q tag
        s.respond id ⟨padTo (if q.fill then 64 else q.len) r.1.bytes, r.1.poison⟩ r.2.1 r.2.2.1 (if q.acq.isSome then tag else none)
    | .control off =>
      let s := s.laurelErr off u
      let r := s.controlRead off q.len
      r.2.2.respond id r.1 r.2.1 false none
    | _ => s

/-- A write is performed at its home. -/
def State.homeWrite (s : State) (id : Nat) (u : Upset) : State :=
  match s.ready id (· == .write) with
  | none => s
  | some q =>
    match placeOf q.dest.addr with
    | .tier k off =>
      if !s.served? q k off false then s
      else
        let r := ((s.granted q k off).entryErr k off u).writeHome k off q.data.bytes q.data.poison u
        let s := if r.1 = 0 then r.2.2.tierTag k (off / 64) (s.relTag q) else r.2.2.checkPage r.1
        s.respond id {} r.1 r.2.1 none
    | .control off => if laurelBase ≤ off then (s.outWrite (off - laurelBase) q.data).respond id {} 0 false none else s
    | _ => s

/-- The value of a combination of two elements (06 R198). -/
def combine (c : Comb) (old new : Nat) : Nat :=
  let mx (b : Bool) (x y : Nat) : Nat := if b then y else x
  match c with
  | .addF32 => addF32 old new
  | .addI32 => (old + new) % 2 ^ 32
  | .maxF32 => toF32 ((ofF32 old).max (ofF32 new))
  | .minF32 => toF32 ((ofF32 old).min (ofF32 new))
  | .maxI32 => mx (decide (sext 32 old < sext 32 new)) old new
  | .minI32 => mx (decide (sext 32 new < sext 32 old)) old new
  | .maxU32 => max old new
  | .minU32 => min old new
  | .orU32 => old ||| new

/-- Combine byte lists element by element, 4 bytes each. -/
def combineBytes (c : Comb) (new old : List Byte) : List Byte :=
  let n := old.length / 4
  (List.range n).flatMap fun i => leBytes 4 (combine c (fieldAt old (4 * i) 4) (fieldAt new (4 * i) 4))

/-- Does a combination overflow FP32 (06 R198)? -/
def combineOver (c : Comb) (old new : Nat) : Bool :=
  c == .addF32 && (fp32.roundIeee false ((ofF32 old).add (ofF32 new))).2

/-- Overflows of a list of combinations. -/
def overCount (c : Comb) (new old : List Byte) : Nat :=
  (List.range (old.length / 4)).countP fun i => combineOver c (fieldAt old (4 * i) 4) (fieldAt new (4 * i) 4)

/-- An atomic is performed at its home, in a tier or in the control range (09 R306). -/
def State.homeAtomic (s : State) (id : Nat) (u : Upset) : State :=
  match s.ready id (fun k => match k with | .combine _ => true | _ => false) with
  | none => s
  | some q =>
    match placeOf q.dest.addr with
    | .tier k off =>
      if !s.served? q k off true then s
      else
        let s := (s.granted q k off).entryErr k off u
        let c := (match q.kind with | .combine c => c | _ => .orU32)
        let r := ({ k := k, t := s.tier k } : TWork).atomicGrain off q.data.bytes.length (combineBytes c q.data.bytes) q.data.poison u
        let s := ((s.fromTier r.w).checkPage r.status).credit 4 (if r.status = 0 && !q.data.poison then overCount c q.data.bytes r.data else 0)
        let s := if q.rel.isSome && r.status == 0 then s.tierTag k (off / 64) (s.relTag q) else s
        s.respond id ⟨r.data, r.poison⟩ r.status r.unchecked none
    | .control off =>
      let c := (match q.kind with | .combine c => c | _ => .orU32)
      (match s.controlAtomic off q.data.bytes.length (combineBytes c q.data.bytes) q.data.poison with
       | none => s
       | some r => (r.2.2.credit 4 (if r.2.1 = 0 && !q.data.poison then overCount c q.data.bytes r.1.bytes else 0)).respond id r.1 r.2.1 false none)
    | _ => s

def execHomeRead (txn : Nat) (u : Upset) (s : State) : Host.Outcome State Fault Refusal := s.inner (s.homeRead txn u)
def execHomeWrite (txn : Nat) (u : Upset) (s : State) : Host.Outcome State Fault Refusal := s.inner (s.homeWrite txn u)
def execHomeAtomic (txn : Nat) (u : Upset) (s : State) : Host.Outcome State Fault Refusal := s.inner (s.homeAtomic txn u)

/-! ## SCRUB_GRAIN (07 R229, R230) -/

/-- A page with more corrected words in the pass than the threshold is Blighted, with the rows in which they were found (07 R229, R233). -/
def TWork.scrubPage (w : TWork) (page threshold : Nat) : TWork :=
  let w := if threshold < w.t.scrubFixed then w.t.scrubRows.foldl (fun w r => w.blight page 2 (some r)) w else w
  { w with t := { w.t with scrubFixed := 0, scrubRows := [] } }

/-- The patrol's grain is passed: at the tier's end the pass of the interval is over. -/
def TWork.scrubNext (w : TWork) (next threshold : Nat) : TWork :=
  let w := if next % 32768 = 0 then w.scrubPage (w.t.scrubAt / 32768) threshold else w
  if tierPages w.k * 32768 ≤ next then
    let w := if w.k < 8 then w.count 7 1 else w
    { w with t := { w.t with scrubAt := 0, scrubDone := true } }
  else { w with t := { w.t with scrubAt := next } }

/-- One grain of the patrol: board-tier pages without metadata are passed over; the page being converted waits. -/
def TWork.scrub (w : TWork) (threshold : Nat) (u : Upset) : TWork :=
  let g := w.t.scrubAt
  let page := g / 32768
  let mode := w.t.mode w.k page
  if mode == .waits then w
  else if mode == .plain || mode == .check then w.scrubNext ((page + 1) * 32768) threshold
  else
    let w := w.disturb g u
    let fs := [w.find mode (2 * g), w.find mode (2 * g + 1)]
    let w := ((w.scrubWord mode (2 * g)).scrubWord mode (2 * g + 1)).grainUncorr fs
    w.scrubNext (g + 1) threshold

/-- A pass begins once per scrub interval, `h` hours; the first after a start begins at once. -/
def Tier.scrubDue (t : Tier) (h ts : Nat) : Bool :=
  match t.scrubFrom with
  | none => true
  | some f => !t.scrubDone || decide (f + h * 3600000000000 ≤ ts)

/-- The interval in progress at `ts`. -/
def Tier.scrubBegin (t : Tier) (ts : Nat) : Tier :=
  if t.scrubFrom.isNone || t.scrubDone then { t with scrubFrom := some ts, scrubDone := false } else t

/-- The patrol gives way to atomics and to a refresh at its limit (08 R260). -/
def execScrubGrain (k : TierId) (u : Upset) (s : State) : Host.Outcome State Fault Refusal :=
  s.inner (
    if s.isReady && (s.tier k.val).scrubDue (s.odv 0x9200 2) s.ts && !s.atomicWaits k.val (pchOf (64 * (s.tier k.val).scrubAt)) &&
        !s.refreshFirst k.val (64 * (s.tier k.val).scrubAt) then
      (s.entryErr k.val (64 * (s.tier k.val).scrubAt) u).tierWork k.val fun w => ({ w with t := w.t.scrubBegin s.ts }).scrub (s.odv 0x9200 1) u
    else s)

/-! ## REFRESH, PAUSE_END (08 R278 to R281) -/

/-- A refresh interval of a bank comes due: it is performed at once, or put off, up to four intervals, while the bank is one that the unit's running command has open or
will activate next; past them the unit pauses at the end of its access. -/
def State.refresh (s : State) (u bank : Nat) : State :=
  let k := u / 64
  let key := 64 * (u % 64) + bank
  let t := s.tier k
  let n := SMap.get 0 t.refresh key
  let done := s.setTier k { t with refresh := SMap.set 0 t.refresh key 0 }
  match (s.unit u).running with
  | none => done
  | some r =>
    if r.computed || r.paused || !(r.next == some bank || r.rows.keys.contains bank) then done
    else if n < 4 then s.setTier k { t with refresh := SMap.set 0 t.refresh key (n + 1) }
    else
      (s.modUnit u fun x => { (x.bump 0xD4 1) with
        running := some { r with paused := true, pausedAt := s.ts, yields := min (r.yields + 1) 0xFFFF } }).stackCount k 0xB 1

def execRefresh (k : StackId) (pch : Fin 64) (sid : Fin 4) (bank : Fin 16) (s : State) : Host.Outcome State Fault Refusal :=
  s.inner (if s.isReady then s.refresh (64 * k.val + pch.val) (16 * sid.val + bank.val) else s)

/-- A pause ends: the refreshes pending of the unit's open and next banks have been performed and its rows closed; its beats are recorded and do not count towards the
time limit (08 R280). -/
def State.pauseEnd (s : State) (u beats : Nat) : State :=
  match (s.unit u).running with
  | some r => if r.paused then s.pauseOver u r beats else s
  | none => s

def execPauseEnd (u : UnitId) (beats : Nat) (s : State) : Host.Outcome State Fault Refusal := s.inner (s.pauseEnd u.val beats)

/-! ## Region commands (07 R219, R220) -/

/-- A region command written through port `p`'s window. -/
def State.portRegion (s : State) (p : PortId) (k op entry base limit : Nat) : State :=
  if s.portUp p then s.regionCmd k (p == s.stew.port) ⟨op, entry, base, limit⟩ else s

def execDefineRegion (p : PortId) (k : TierId) (entry base limit : Nat) (s : State) : Host.Outcome State Fault Refusal :=
  s.inner (s.portRegion p k.val 1 entry base limit)
def execRemoveRegion (p : PortId) (k : TierId) (entry base limit : Nat) (s : State) : Host.Outcome State Fault Refusal :=
  s.inner (s.portRegion p k.val 2 entry base limit)
def execResealRegion (p : PortId) (k : TierId) (entry base limit : Nat) (s : State) : Host.Outcome State Fault Refusal :=
  s.inner (s.portRegion p k.val 3 entry base limit)
def execUnsealRegion (p : PortId) (k : TierId) (entry base limit : Nat) (s : State) : Host.Outcome State Fault Refusal :=
  s.inner (s.portRegion p k.val 4 entry base limit)

/-- A pending region command is applied at the boundary (07 R219 to R221). -/
def Tier.applyRegion (t : Tier) (k : Nat) : Tier :=
  match t.pending with
  | none => t
  | some c =>
    let e := SMap.get ({} : Region) t.entries c.entry
    let t := { t with pending := none }
    let put (r : Region) : Tier := { t with entries := SMap.set {} t.entries c.entry r }
    match c.op with
    | 1 =>
      let r : Region := { valid := true, isSealed := true, base := c.base, limit := c.limit }
      if k < 8 then put r
      else
        { put { r with converting := true } with conv := some { entry := c.entry, page := c.base, toSealed := true, fill := true } }
    | 2 =>
      if k < 8 then put {}
      else (List.range (e.limit + 1 - e.base)).foldl (fun t i => t.forget (e.base + i)) (put {})
    | 3 => { put { e with converting := true } with conv := some { entry := c.entry, page := e.base, toSealed := true, fill := false } }
    | _ => { put { e with converting := true } with conv := some { entry := c.entry, page := e.base, toSealed := false, fill := false } }

/-! ## REGION_CONVERSION_GRAIN (07 R221 to R223) -/

/-- The conversion's page is done: a page that met a real error is Blighted; the entry's last page ends the conversion. -/
def TWork.convPageDone (w : TWork) (c : Conv) : TWork :=
  let e := SMap.get ({} : Region) w.t.entries c.entry
  let w := if c.erred then w.blight c.page 3 none else w
  if e.limit ≤ c.page then
    { w with
      t := { w.t with
        conv := none
        entries := SMap.set {} w.t.entries c.entry { e with isSealed := c.toSealed, converting := false } }
      evs := w.evs ++ [{ code := 0x24, source := 0x80 + w.k, args := [w.k, c.entry, c.poisoned] }] }
  else { w with t := { w.t with conv := some { c with page := c.page + 1, grain := 0, erred := false } } }

/-- One grain of a conversion; pages out of service, and metadata pages, are passed over. -/
def TWork.convert (w : TWork) (u : Upset) : TWork :=
  match w.t.conv with
  | none => w
  | some c =>
    let e := SMap.get ({} : Region) w.t.entries c.entry
    if w.t.page c.page != 0 || (w.k == 8 && (c.page - e.base) % 9 == 8) then w.convPageDone c
    else
      let g := c.page * 32768 + c.grain
      let w := w.disturb g u
      let w :=
        if c.fill then
          { w with t := ((w.t.put (64 * g) (zeros 64)).setWord w.k (2 * g) { mode := .sealed }).setWord w.k (2 * g + 1) { mode := .sealed } }
        else (w.convertWord c.toSealed (2 * g)).convertWord c.toSealed (2 * g + 1)
      match w.t.conv with
      | none => w
      | some c =>
        if c.grain + 1 = 32768 then w.convPageDone c
        else { w with t := { w.t with conv := some { c with grain := c.grain + 1 } } }

def execRegionConversionGrain (k : TierId) (u : Upset) (s : State) : Host.Outcome State Fault Refusal :=
  s.inner (if s.isReady && !s.atomicWaits k.val (pchOf (s.tier k.val).convAt) && !s.refreshFirst k.val (s.tier k.val).convAt then
    s.tierWork k.val fun w => { w with t := { w.t with convWait := 0 } }.convert u else s)

/-! ## Page commands (07 R232) -/

/-- A page command written through port `p`'s window. -/
def State.portPage (s : State) (p : PortId) (k op page : Nat) : State := if s.portUp p then s.pageCmd k (p == s.stew.port) op page else s

def execBlightPage (p : PortId) (k : TierId) (page : Nat) (s : State) : Host.Outcome State Fault Refusal :=
  s.inner (s.portPage p k.val 1 page)
def execRestorePage (p : PortId) (k : TierId) (page : Nat) (s : State) : Host.Outcome State Fault Refusal :=
  s.inner (s.portPage p k.val 2 page)
def execReturnPage (p : PortId) (k : TierId) (page : Nat) (s : State) : Host.Outcome State Fault Refusal :=
  s.inner (s.portPage p k.val 3 page)

end Sys2Proof.Machine
end

