-- ==== Sys2Proof/Machine/BriarOps.lean ====
section
/-!
DEFINITION. Briar: routes (12 R406, R407), packets and their buffer sets (R402 to R404), requests that leave for other modules and those that come from
them (R408 to R411).
-/

namespace Sys2Proof.Machine

/-! ## Ports and counters (12 R394, R414) -/

def State.bport (s : State) (b : Nat) : BriarPort := SMap.get {} s.briar.ports b
def State.setBport (s : State) (b : Nat) (x : BriarPort) : State := { s with briar := { s.briar with ports := SMap.set {} s.briar.ports b x } }
def State.modBport (s : State) (b : Nat) (f : BriarPort → BriarPort) : State := s.setBport b (f (s.bport b))

/-- Count in OD 0x7500 + i. -/
def BriarPort.count (x : BriarPort) (sub n : Nat) : BriarPort :=
  { x with cnt := SMap.mod 0 x.cnt sub fun c => if sub ≤ 3 then add64 c n else satAdd 32 c n }

/-- Count in OD 0x7504. -/
def State.ringCount (s : State) (sub n : Nat) : State :=
  { s with briar := { s.briar with cnt := SMap.mod 0 s.briar.cnt sub fun c => if sub = 6 then add64 c n else satAdd 32 c n } }

/-! ## Routes (12 R406, R407) -/

/-- The port states of a position: its own, or those of the link map, in which an entry that is missing or expired has every port down. -/
def State.portStates (s : State) (p : Nat) : List Nat :=
  if p = s.briar.pos then (List.range 4).map fun b => (s.bport b).state
  else match SMap.get none s.briar.map p with
    | some e => e.states
    | none => []

/-- Is the link of `d` positions between `p` and `p + d` up: both ends report it? -/
def State.linkEast (s : State) (p d : Nat) : Bool :=
  (s.portStates p).getD (d - 1) 0 == 5 && (s.portStates ((p + d) % s.briar.n)).getD (d + 1) 0 == 5

/-- A position `d` further on. -/
def State.along (s : State) (west : Bool) (p d : Nat) : Nat :=
  let n := s.briar.n
  if west then (p + n - d % n) % n else (p + d) % n

/-- The link of `d` positions from `p` in a direction. -/
def State.linkFrom (s : State) (west : Bool) (p d : Nat) : Bool := s.linkEast (if west then s.along true p d else p) d

def optMin : Option Nat → Option Nat → Option Nat
  | some a, some b => some (min a b)
  | some a, none => some a
  | none, b => b

/-- Least hops from `a` to the positions `j` and `j - 1` further on, moving one way only. -/
def State.hops (s : State) (west : Bool) (a : Nat) : Nat → Option Nat × Option Nat
  | 0 => (some 0, none)
  | j + 1 =>
    let r := s.hops west a j
    let x := if s.linkFrom west (s.along west a j) 1 then r.1.map (· + 1) else none
    let y := if 1 ≤ j ∧ s.linkFrom west (s.along west a (j - 1)) 2 = true then r.2.map (· + 1) else none
    (optMin x y, r.1)

/-- How far a position lies in a direction. -/
def State.ringDist (s : State) (west : Bool) (p dst : Nat) : Nat :=
  let n := s.briar.n
  if west then (p + n - dst) % n else (dst + n - p) % n

/-- The direction that a source chooses; none is UNREACHABLE. -/
def State.direction (s : State) (dst : Nat) : Option Bool :=
  let p := s.briar.pos
  match (s.hops false p (s.ringDist false p dst)).1, (s.hops true p (s.ringDist true p dst)).1 with
  | some x, some y => some (decide (y < x))
  | some _, none => some false
  | none, some _ => some true
  | none, none => none

/-- The next hop of a packet in its direction: 1 or 2 positions, or none that can be used. -/
def State.nextHop (s : State) (west : Bool) (dst : Nat) : Option Nat :=
  let p := s.briar.pos
  let r := s.ringDist west p dst
  let closer := (match (s.hops west p r).1, (s.hops west (s.along west p 2) (r - 2)).1 with
    | some y, some x => x + 1 == y
    | _, _ => false)
  if 2 ≤ r ∧ s.linkFrom west p 2 = true ∧ closer = true then some 2
  else if s.linkFrom west p 1 then some 1
  else none

/-- The port of a hop. -/
def hopPort (west : Bool) (d : Nat) : Nat := (if west then 2 else 0) + (d - 1)

/-- Does a hop of `d` positions cross the boundary between N − 1 and 0 (12 R403)? -/
def State.crosses (s : State) (west : Bool) (d : Nat) : Bool :=
  if west then decide (s.briar.pos < d) else decide (s.briar.n ≤ s.briar.pos + d)

/-! ## Packets (12 R402 to R404) -/

def BriarPkt.slots (p : BriarPkt) : Nat := 1 + p.data.length
/-- The buffer set: requests low and high, responses low and high. -/
def BriarPkt.set (p : BriarPkt) : Nat := (if 1 ≤ p.ty ∧ p.ty ≤ 3 then 0 else 2) + b2n p.high

/-- Bytes 0x18 to 0x3F of the header slot. Of an IDENT they are the ring identifier (U16), N, the position and the port (U8 each); of an LSA its sequence (U16) and the four port
states (U8 each). DESIGN CHOICE: the spec gives no layout for either payload (log 116). -/
def BriarPkt.payload (p : BriarPkt) : List Byte :=
  if p.ty = 6 then leBytes 2 (p.extra.getD 0 0) ++ (List.range 4).flatMap fun i => leBytes 1 (p.extra.getD (i + 1) 0)
  else if p.ty = 7 then leBytes 2 (p.extra.getD 0 0) ++ (List.range 3).flatMap fun i => leBytes 1 (p.extra.getD (i + 1) 0)
  else match p.relTag with
    | some t => leBytes 4 (t.1 % 8 + 8 + 16 * (t.2.1 % 64) + 1024 * (t.2.2 % 128))
    | none => []

/-- The header slot of a packet of `n` data slots (12 R404). -/
def BriarPkt.header (p : BriarPkt) (n : Nat) : List Byte :=
  padTo 64 (leBytes 4 (p.ty % 16 + 16 * b2n p.west + 32 * b2n p.high + 64 * (p.dst % 64) + 2 ^ 12 * (p.src % 64) + 2 ^ 18 * (n % 64) + 2 ^ 24 * (p.part % 16) + 2 ^ 28 * (p.status % 16))
    ++ leBytes 4 (p.tag % 65536 + 2 ^ 16 * (p.op % 16) + 2 ^ 20 * b2n p.release + (match p.rtally with | some t => 2 ^ 21 * t.val + 2 ^ 24 | none => 0))
    ++ leBytes 8 p.addr ++ leBytes 4 (p.len % 4096) ++ leBytes 4 p.poison ++ p.payload)

/-- A packet as its header slot gives it, its data slots still to come (12 R404). -/
def pktOf (h : List Byte) : BriarPkt :=
  let w0 := fieldAt h 0 4
  let w1 := fieldAt h 4 4
  let x := fieldAt h 0x18 4
  let ty := bits w0 0 4
  { ty := ty, west := w0.testBit 4, high := w0.testBit 5, dst := bits w0 6 6, src := bits w0 12 6, part := bits w0 24 4, status := bits w0 28 4
    tag := bits w1 0 16, op := bits w1 16 4, release := w1.testBit 20, rtally := if w1.testBit 24 then some (Fin.ofNat 8 (bits w1 21 3)) else none
    addr := fieldAt h 8 8, len := bits (fieldAt h 0x10 4) 0 12, poison := fieldAt h 0x14 4
    relTag := if ty = 4 ∧ x.testBit 3 = true then some (bits x 0 3, bits x 4 6, bits x 10 7) else none
    extra := if ty = 6 then fieldAt h 0x18 2 :: (List.range 4).map fun i => fieldAt h (0x1A + i) 1
             else if ty = 7 then fieldAt h 0x18 2 :: (List.range 3).map fun i => fieldAt h (0x1A + i) 1 else [] }

/-- How many data slots follow a header slot. -/
def grainsAfter (h : List Byte) : Nat := bits (fieldAt h 0 4) 18 6

/-- TYPE, SRC and DST. -/
def BriarPkt.flow (p : BriarPkt) : Nat × Nat × Nat := (p.ty, p.src, p.dst)

/-- The first slots of a packet of `n` data slots: its header and the data slots at hand. -/
def BriarPkt.slotsOf (p : BriarPkt) (n : Nat) : List BSlot := ⟨1, p.header n, some p.flow⟩ :: p.data.map fun d => ⟨2, d, some p.flow⟩

/-! ## Frames (12 R397) -/

/-- The first 12 bytes of a frame's header. -/
def BFrame.head (f : BFrame) : List Byte :=
  leBytes 4 (f.seq % 4096 + 2 ^ 12 * (f.ack % 4096) + 2 ^ 24 * b2n f.nak)
    ++ leBytes 4 ((List.range 16).foldl (fun n i => n + 4 ^ i * ((f.slots.getD i {}).code % 4)) 0)
    ++ leBytes 4 (f.crSet % 4 + 4 * (f.crSlots % 2 ^ 14))

/-- The 16 slots of a frame. -/
def BFrame.body (f : BFrame) : List Byte := (List.range 16).flatMap fun i => padTo 64 (f.slots.getD i {}).bytes

/-- A frame's 1,040 bytes: header with its CRC-32C, and slots. -/
def BFrame.bytes (f : BFrame) : List Byte := f.head ++ leBytes 4 (crc32c (f.head ++ f.body)) ++ f.body

/-- A frame as its bytes give it. -/
def linkFrame (l : List Byte) : BFrame :=
  let w := fieldAt l 0 4
  let m := fieldAt l 4 4
  let c := fieldAt l 8 4
  { seq := bits w 0 12, ack := bits w 12 12, nak := w.testBit 24, crSet := bits c 0 2, crSlots := bits c 2 14
    slots := (List.range 16).map fun i => { code := bits m (2 * i) 2, bytes := (l.drop (16 + 64 * i)).take 64 } }

/-- Does a frame's CRC match? -/
def frameSound (l : List Byte) : Bool := fieldAt l 12 4 == crc32c (l.take 12 ++ l.drop 16)

/-! ## Packets that wait (12 R400, R405) -/

/-- A packet waits for the port of its next hop, in transit or of this module's own. -/
def State.briarPut (s : State) (p : BriarPkt) (transit : Bool) : Option State :=
  (s.nextHop p.west p.dst).map fun d =>
    let p := { p with high := p.high || s.crosses p.west d, ord := s.nextId }
    ({ s with nextId := s.nextId + 1 }).modBport (hopPort p.west d) fun x =>
      if transit then { x with transit := x.transit ++ [p] } else { x with queue := x.queue ++ [p] }

/-- The port by which a packet of this module's own to a position would leave now. -/
def State.outPort (s : State) (dst : Nat) : Nat :=
  match s.direction dst with
  | some west => ((s.nextHop west dst).map (hopPort west)).getD 0
  | none => 0

/-- A packet of this module's own takes its direction. -/
def State.briarOwn (s : State) (p : BriarPkt) : Option State :=
  (s.direction p.dst).bind fun west => s.briarPut { p with west := west } false

def combCode : Comb → Nat
  | .addF32 => 0 | .addI32 => 1 | .maxF32 => 2 | .minF32 => 3 | .maxI32 => 4 | .minI32 => 5 | .maxU32 => 6 | .minU32 => 7 | .orU32 => 8

def combOf (n : Nat) : Option Comb :=
  [Comb.addF32, .addI32, .maxF32, .minF32, .maxI32, .minI32, .maxU32, .minU32, .orU32][n]?

/-- A data slot: the bytes at their places in the grain. -/
def slotBytes (addr : Nat) (d : List Byte) : List Byte := padTo 64 (zeros (addr % 64) ++ d)

/-! ## Requests that leave (12 R408, R410, R411) -/

/-- The packet of an access of one grain. -/
def State.requestPkt (s : State) (q : Txn) (dst tag : Nat) : BriarPkt :=
  { ty := (match q.kind with | .read => 1 | .write => 2 | .combine _ => 3)
    west := false, high := false, dst := dst, src := s.briar.pos, part := q.part.getD 0, tag := tag
    op := (match q.kind with | .combine c => combCode c | _ => 0), release := q.rel == some 4, reg := q.part, rtally := q.rtally
    addr := q.dest.addr, len := if q.kind == .read then q.len else q.data.bytes.length, poison := b2n q.data.poison
    data := if q.kind == .read then [] else [slotBytes q.dest.addr q.data.bytes] }

/-- A tag that no outstanding request has. -/
def State.freeTag (s : State) : Nat :=
  ((List.range 8193).map fun i => (s.briar.nextTag + i) % 65536).find? (fun t => !s.briar.reqs.any (·.tag == t)) |>.getD 0

/-- A remote access completes with an outcome other than data: a read poisoned, its status as given. -/
def State.remoteFail (s : State) (q : Txn) (status : Nat) : State :=
  s.respond q.id (if q.kind == .read then ⟨noData q.len, true⟩ else {}) status false none

/-- An access that has reached the Briar ports leaves for its module; with 8,192 outstanding it waits; with no route it completes with UNREACHABLE. -/
def State.toBriar (s : State) (q : Txn) : State :=
  match q.dest.module with
  | none => s
  | some dst =>
    if 8192 ≤ s.briar.reqs.length then s
    else
      let tag := s.freeTag
      let p := s.requestPkt q dst tag
      match s.briarOwn p with
      | none => (s.remoteFail q 3).ringCount 2 1
      | some s =>
        let s := (s.modTxn q.id fun q => { q with stage := .remote }).ringCount 6 (64 * p.slots)
        { s with briar := { s.briar with nextTag := (tag + 1) % 65536, reqs := s.briar.reqs ++ [⟨tag, q.id, s.ts⟩] } }

/-! ## Requests that come (12 R408) -/

/-- STATUS of a response; what has no code travels as poison (R404). An access to a check page is handled as one to an unmapped address (07 R226). -/
def briarStatus (status : Nat) : Nat := if status = 1 ∨ status = 2 then status else if status = 6 then 1 else 0

/-- The response to a request: READ_RESP for a read, ACK for the rest. One that finds no route is lost, and its requester times out. -/
def State.briarAnswer (s : State) (r : InReq) : State :=
  let n := if r.rd && r.len != 0 then (r.addr % 64 + r.len + 63) / 64 else 0
  let p : BriarPkt :=
    { ty := if r.rd then 4 else 5, west := false, high := false, dst := r.src, src := s.briar.pos, part := r.part, status := r.status
      tag := r.tag, addr := r.addr, len := r.len, poison := r.poison, relTag := r.relTag
      data := (List.range n).map fun j => ((r.data.find? (·.1 == j)).map (·.2)).getD (zeros 64) }
  (s.briarOwn p).getD s

/-- A grain of a request has been answered by its home. -/
def State.pieceDone (s : State) (q : Txn) (req slot : Nat) : State :=
  match s.briar.served.find? (·.id == req) with
  | none => s
  | some r =>
    let bad := q.kind == .read && q.data.poison
    let r : InReq := { r with
      left := r.left - 1
      data := if q.kind == .read then r.data ++ [(slot, slotBytes q.dest.addr q.data.bytes)] else r.data
      poison := if bad then r.poison ||| 2 ^ slot else r.poison
      status := if r.status = 0 then briarStatus q.status else r.status
      relTag := if r.relTag.isSome then r.relTag else q.tag.map fun t => (t.scope, t.pos, (t.who.tile?).getD 0) }
    let rest := s.briar.served.filter (·.id != req)
    if r.left = 0 then ({ s with briar := { s.briar with served := rest } }).briarAnswer r
    else { s with briar := { s.briar with served := rest ++ [r] } }

end Sys2Proof.Machine
end

