-- ==== Sys2Proof/Machine/Kernel.lean ====
section
/-!
DEFINITION. Meanings of the kernel family: the tile beat, holds, pushing and opening, loops, the kernel's end and completion
(04 R112 to R137, R521).
-/

namespace Sys2Proof.Machine

/-! ## Physical errors in a tile's memories (15 R478, R479) -/

/-- Change the command with an index in a queue or loop buffer. -/
def Engine.modCmd (e : Engine) (idx : Nat) (f : QCmd → QCmd) : Engine :=
  let g (q : QCmd) : QCmd := if q.idx = idx then f q else q
  { e with queue := e.queue.map g, buf := e.buf.map g }

/-- An error strikes: a word or line keeps it until it is met; register and accumulator parity poisons at once and is counted;
a release tag with bad parity is dropped. -/
def Work.strike (w : Work) (e : TileErr) : Work :=
  let t := w.t
  let worse (old : Nat) (corr : Bool) : Nat := if old = 1 || old = 3 then old else if corr && old = 0 then 2 else 3
  match e with
  | .scratch x corr => { w with t := { t with words := SMap.mod 0 t.words x (worse · corr) } }
  | .cache set way corr =>
    let k := 8 * (set % 256) + way % 8
    { w with t := { t with cache := SMap.mod none t.cache k fun l => l.map fun l => { l with err := worse l.err corr } } }
  | .vreg r g => { w with t := { t with vregPoison := SMap.set false t.vregPoison (8 * (r % 32) + g % 8) true }, parity := w.parity + 1 }
  | .acc row => { w with t := { t with accPoison := SMap.set false t.accPoison (row % 64) true }, parity := w.parity + 1 }
  | .stat => { w with t := { t with active := { t.active with poison := true } }, parity := w.parity + 1 }
  | .shadow => { w with t := { t with shadow := { t.shadow with poison := true } }, parity := w.parity + 1 }
  | .command e idx => { w with t := t.setEngine e ((t.engine e).modCmd idx fun q => { q with bad := true }) }
  | .tag grain => { w with wrote := w.wrote ++ [grain] }
  | .imem x corr => { w with t := { t with core := { t.core with imemErr := SMap.mod 0 t.core.imemErr x (worse · corr) } } }
  | .dmem x corr => { w with t := { t with core := { t.core with dmemErr := SMap.mod 0 t.core.dmemErr x (worse · corr) } } }

/-! ## Tallies (04 R117) -/

/-- One count on a tally. -/
def Tile.countTally (t : Tile) (n : Fin 8) : Tile :=
  { t with sched := { t.sched with tally := SMap.mod 0 t.sched.tally n.val fun v => (v + 1) % 65536 } }

/-- Count finished operations in the order of their issue, each tally stopping at its first unfinished one; an acquire of die scope or wider first
invalidates the read cache (09 R298). -/
def Work.countOps (w : Work) : List OpRec → List (Fin 8) → Work
  | [], _ => w
  | o :: os, stuck =>
    match o.tally with
    | none => w.countOps os stuck
    | some n =>
      if stuck.contains n || !o.finished then w.countOps os (n :: stuck)
      else
        let t := { w.t with ops := w.t.ops.filter (·.id != o.id), kern := { w.t.kern with unchecked := w.t.kern.unchecked || o.unchecked } }
        let t := (match o.ord with | .acquire sc => if 2 ≤ sc.val then t.dropCache else t | _ => t)
        ({ w with t := t.countTally n }).countOps os stuck

/-- What every tile beat does, held or not: operations that completed and remote writes that landed are counted, the banks are free again. -/
def Work.beatEnd (w : Work) : Work :=
  let w := w.countOps w.t.ops []
  let t := w.t.landed.foldl Tile.countTally w.t
  { w with t := { t with landed := [], remoteUse := none, bankUse := [], kern := { t.kern with heldAs := 0 } } }

/-! ## KERNEL_BEAT -/

/-- The fault met in the beat that closes, the one of lowest code, ends the kernel (04 R134). -/
def Work.endMet (w : Work) (tile : Nat) : Work := if w.t.kern.pend = 0 then w else w.kernelFault tile w.t.kern.pend

/-- A held beat (04 R114, R116, R138). -/
def Work.heldBeat (w : Work) (tile : TileId) (cause ts : Nat) : Work :=
  let s := w.t.sched
  let n := s.curHold + 1
  let t := { w.t with
    sched := { s with held := true, holdCause := cause, holdBeats := add64 s.holdBeats 1, curHold := n,
                      holdSince := if s.curHold = 0 then ts else s.holdSince }
    kern := { w.t.kern with checkDue := false }
    ctl := { w.t.ctl with cnt := SMap.mod 0 w.t.ctl.cnt cHoldLongest fun v => min (max v n) (2 ^ 32 - 1) } }
  ((scatterSources tile (t.remoteUse.toList) 4 4 { w with t := t }).beatEnd).endMet tile.val

/-- Is a read one of scale grains, which are delivered before the rows they scale? -/
def SRead.isScale (r : SRead) : Bool := r.part == .tmulScale || r.part == .tloadScale

/-- The fault codes of the commands due in this beat, in the engines' order. -/
def Tile.dueFaults (t : Tile) : List Nat :=
  if t.kern.stopped then [] else
    ([0, 1, 2, 3] : List EngId).filterMap fun e => (t.dueCmd e).bind fun q => let c := t.cmdFault e q; if c = 0 then none else some c

/-- Commands due in this beat whose parity is bad: words delivered with their poison tag (15 R482). -/
def Tile.badDue (t : Tile) : Nat :=
  if t.kern.stopped then 0 else ([0, 1, 2, 3] : List EngId).countP fun e => (t.dueCmd e).any (·.bad)

/-- The faults of a beat are met. -/
def Tile.meetFaults (t : Tile) : Tile := t.dueFaults.foldl Tile.meet t

/-- The writes that land in this beat. -/
def Tile.landing (t : Tile) : List SWrite := t.writes.filter (·.beat == t.sched.kbeat)

/-- The reads delivered in this beat. -/
def Tile.reading (t : Tile) : List SRead := t.reads.filter (·.beat == t.sched.kbeat)

/-- The landings and the reads of this beat leave the timeline. -/
def Tile.takeBeat (t : Tile) : Tile :=
  let k := t.sched.kbeat
  { t with writes := t.writes.filter (·.beat != k), reads := t.reads.filter (·.beat != k) }

/-- The checker looks at the reads of a beat (04 R142). -/
def Work.checkReads (w : Work) (rs : List SRead) : Work :=
  rs.foldl (fun w r => w.check r.isNew r.eng r.cmd 0 r.addr (r.addr + r.len)) w

/-- The data read reaches what reads it, scale grains first. -/
def Work.arriveAll (ring : RingAt) (tile : TileId) (rs : List SRead) (w : Work) : Work :=
  let sv := w.serveReads tile.val (rs.filter (·.part != .acc))
  (rs.filter (·.isScale) ++ rs.filter (!·.isScale)).foldl (fun w r => w.arrive tile ring r sv.1) sv.2

/-- The next kernel beat. -/
def Tile.nextBeat (t : Tile) : Tile :=
  { t with
    sched := { t.sched with kbeat := t.sched.kbeat + 1, held := false, curHold := 0 }
    kern := { t.kern with checkDue := t.kern.hawthorn && t.kern.issued, issued := false } }

/-- Checker tags live until their writes have landed (04 R142). -/
def Tile.ageTags (t : Tile) : Tile := { t with htags := t.htags.filter fun g => decide (t.sched.kbeat < g.land) }

/-- An unheld beat closes: landings, reads, results that land in the next beat, counts, and the kernel fault met (04 R114 to R125, R132, R134). DESIGN CHOICE (log 115):
KBEAT stands one higher after each such beat, the kernel's last one included. -/
def Work.closeBeat (w : Work) (ring : RingAt) (tile : TileId) : Work :=
  let rs := w.t.reading
  let ws := w.t.landing
  let busy := w.t.sched.kbeat % 16 :: ((rs.filter (·.part != .acc)).flatMap fun r => (grainsAt r.addr r.len).map bankOf)
  let room := 4 - ((rs.filter fun r => r.eng == 2).flatMap fun r => grainsAt r.addr r.len).eraseDups.length
  let w1 : Work := { w with t := w.t.meetFaults.takeBeat, parity := w.parity + w.t.badDue }
  let w2 : Work := (w1.landWrites tile.val ws).checkReads (rs.filter (·.part != .acc))
  let w3 : Work := scatterSources tile busy room 4 (w2.arriveAll ring tile rs)
  let w4 : Work := Work.beatEnd (Work.landRegs { w3 with t := w3.t.nextBeat })
  Work.endMet { w4 with t := w4.t.ageTags } tile.val

/-- A tile beat. In a kernel, every command that is due and held by nothing issues before the beat closes: a KERNEL_BEAT that comes too early does nothing. -/
def Work.beat (w : Work) (ring : RingAt) (tile : TileId) (errs : List TileErr) (ts : Nat) : Work :=
  let x := errs.foldl Work.strike w
  let cause := x.t.holdCauseNow
  if x.t.kern.inKernel && cause = 0 && ([0, 1, 2, 3] : List EngId).any (fun e => (x.t.issuable e).isSome) then w
  else
    let w := { x with t := { x.t with ctl := { x.t.ctl with beatCount := (x.t.ctl.beatCount + 1) % 2 ^ 48 } } }
    if !w.t.kern.inKernel then w.beatEnd
    else if w.t.kern.startBeat then
      -- the beat of the kernel's start is neither held nor a kernel beat (R114)
      ({ w with t := { w.t with kern := { w.t.kern with startBeat := false } } }.beatEnd).endMet tile.val
    else if cause != 0 then w.heldBeat tile cause ts
    else w.closeBeat ring tile

/-- KERNEL_BEAT. A request of several grains that the remote port has begun takes consecutive beats (03 R94): the beat does not close before its grain is served. -/
def execKernelBeat (t : TileId) (errs : List TileErr) (s : State) : Host.Outcome State Fault Refusal :=
  s.inner (if s.isReady && !s.burstDue t.val then s.work t.val fun w => w.beat s.ring t errs s.ts else s)

/-! ## HOLD_LIMIT_EXPIRE (04 R137) -/

/-- The hold in progress has lasted longer than OD 0x6040.01. -/
def State.holdTooLong (s : State) (t : Nat) : Bool :=
  let x := s.tile t
  x.kern.inKernel && x.sched.held && decide (s.odv 0x6040 1 * 1000 < s.ts - x.sched.holdSince)

def execHoldLimitExpire (t : TileId) (s : State) : Host.Outcome State Fault Refusal :=
  s.inner (if s.isReady && s.holdTooLong t.val then s.work t.val fun w => w.meetFault 7 else s)

/-! ## The kernel's end -/

/-- A core restarted at address 0 with undefined registers (04 R134; log 11). -/
def CoreSt.restarted (c : CoreSt) (draw : Nat) : CoreSt :=
  { c with
    halted := false, wfi := false, restart := false, pc := 0, resv := none, relAt := none
    regs := (List.range 31).foldl (fun m i => SMap.set 0 m (i + 1) ((Config.freeWord (draw + i)).toNat % 2 ^ 32)) []
    csrs := [0x300, 0x304, 0x305, 0x340, 0x341, 0x342, 0x343].zipIdx.foldl
      (fun m x => SMap.set 0 m x.1 ((Config.freeWord (draw + 31 + x.2)).toNat % 2 ^ 32)) [] }

/-- A kernel's saturations reach Laurel with the end notice (05 R172, R163). -/
def State.creditSat (s : State) (k : Kern) : State :=
  let s := (List.range 6).foldl (fun s c => s.credit c (SMap.get 0 k.sat c)) s
  { s with laurel := { s.laurel with mxClip := add64 s.laurel.mxClip k.mxClip } }

/-- The kernel ends in the tile: IN_KERNEL clears, what is left of its stream is dropped, the end notice leaves, a core that faulted restarts (04 R119, R134). -/
def State.endKernel (s : State) (t : Nat) : State :=
  let x := s.tile t
  let k := x.kern
  let d := if k.lastPopped then (x.fifo, 0, true) else dropStream k.launch x.fifo
  let s := s.creditSat k
  let x := ({ x with fifo := d.1, kern := { k with inKernel := false, sat := [], mxClip := 0 } }).bump cBcastDiscard d.2.1
  let restart := x.core.restart
  let x := { x with
    core := if restart then x.core.restarted s.free else x.core
    sched := { x.sched with held := false, curHold := 0 } }
  let s := if restart then { s with free := s.free + 38 } else s
  let s := s.setTile t x
  (s.dropDescs t).notify ⟨k.launch, t, k.fault, k.poisoned, k.unchecked, k.zeroLen⟩

def execKernelEnd (t : TileId) (s : State) : Host.Outcome State Fault Refusal :=
  s.inner (if s.isReady && (s.tile t.val).mayEnd then s.endKernel t.val else s)

/-- The end notice that decides a completion: the first with a fault code, or of those that reach the launcher in its beat the one of lowest code (04 R119). -/
def firstFault (ns : List EndNotice) : Option EndNotice :=
  match ns.dropWhile (·.fault == 0) with
  | [] => none
  | x :: r =>
    some (((r.takeWhile fun n => Config.sameBeat n.launch n.tile).filter (·.fault != 0)).foldl (fun b n => if n.fault < b.fault then n else b) x)

/-- What the launcher's completion carries: the fault code and its tile, and the flags (04 R119). -/
def completionOf (ns : List EndNotice) : Nat × Nat × Bool × Bool × Bool :=
  let f := firstFault ns
  ((f.map (·.fault)).getD 0, (f.map (·.tile)).getD 0, ns.any (·.poisoned), ns.any (·.unchecked), ns.all (·.zeroLen))

/-- An operation has ended: what its record will carry (10 R335, R336). The first cause to arise stays. -/
def HostOp.finish (o : HostOp) (status fault detail : Nat) : HostOp :=
  if o.stage == .done then o
  else { o with stage := .done, status := if o.status = 0 then status else o.status, fault := if o.status = 0 then fault else o.fault
                detail := if o.status = 0 then detail else o.detail }

/-- KERNEL_COMPLETE: every named tile has reported (04 R119; 11 R385 for a step's kernel). -/
def State.kernelComplete (s : State) (id : Nat) : State :=
  match s.launches.find? (·.id == id) with
  | none => s
  | some l =>
    let ns := s.notices.filter (·.launch == id)
    if !(l.open_.all fun t => ns.any (·.tile == t)) then s
    else
      let c := completionOf ns
      let s := { s with launches := s.launches.filter (·.id != id), notices := s.notices.filter (·.launch != id) }
      match l.by_ with
      | .hostOp op =>
        s.modOp op fun o =>
          { (o.finish (if c.1 = 0 then 0 else if c.1 = 9 then 8 else 1) c.1 c.2.1) with
            poisoned := c.2.2.1, unchecked := c.2.2.2.1, zeroLen := c.2.2.2.2 && !l.open_.isEmpty || l.open_.isEmpty }
      | .laurel => if c.1 = 0 || c.1 = 9 then s else s.stepAbort 1

def execKernelComplete (launch : Nat) (s : State) : Host.Outcome State Fault Refusal :=
  s.inner (if s.isReady then s.kernelComplete launch else s)

/-! ## ENGINE_COMMAND_PUSH, OPENING_COMMAND, DESCRIPTOR_ARRIVE (04 R112, R113, 06 R521) -/

/-- The opening command's declaration takes hold: engaged set and first issue beats. -/
def Tile.declare (t : Tile) (o : Opening) : Tile :=
  let t := { t with
    kern := { t.kern with decl := some o }
    sched := { t.sched with engaged := o.engaged.eraseDups.foldl (fun m e => m ||| 2 ^ e.val) 0 } }
  o.engaged.foldl (fun t e =>
    t.setEngine e { t.engine e with engaged := true, next := ((o.first.find? (·.1 == e)).map (·.2)).getD 0 }) t

/-- Ask for a die descriptor grain of a command. -/
def Work.askDesc (w : Work) (tile : TileId) (e : EngId) (idx a : Nat) : Work :=
  w.ask { id := 0, agent := .engine tile e, kind := .read, dest := ⟨none, a⟩, len := 64, sentAt := w.t.ctl.beatCount, purpose := .desc tile e idx }

/-- A command enters its engine's queue, and its first descriptor is asked for (06 R521). -/
def Work.enqueue (w : Work) (tile : TileId) (e : EngId) (c : EngCmd) (bad : Bool) : Work :=
  let en := w.t.engine e
  let q : QCmd := { cmd := c, idx := en.pushed % 65536, bad := bad, got := [] }
  let w := { w with t := w.t.setEngine e { en.norm with queue := en.norm.queue ++ [q], pushed := en.pushed + 1 } }
  match (if bad then none else nextDesc c.op []) with
  | some (.die a) => w.askDesc tile e q.idx a
  | _ => w

/-- A store completes a command at an engine's queue window: discarded outside a kernel; the first of a kernel is its opening command, and one without a
declaration before it is dropped (log 92); one for an engine that is not engaged ends the kernel; a full queue stalls the store. -/
def Work.push (w : Work) (tile : TileId) (e : EngId) (c : EngCmd) (bad : Bool) : Work :=
  if !w.t.kern.inKernel || w.t.kern.stopped || !opExpressible c.op then w
  else if (w.t.engine e).full then w
  else
    match w.t.kern.decl with
    | some _ => if (w.t.engine e).engaged then w.enqueue tile e c bad else w.meetFault 6
    | none =>
      match c.opening with
      | none => w
      | some o =>
        let w := { w with t := w.t.declare o }
        if o.engaged.isEmpty then { w with t := { w.t with kern := { w.t.kern with opened := true, zeroLen := true } } }
        else if (w.t.engine e).engaged then w.enqueue tile e c bad
        else w.meetFault 6

/-- A store of the control core to a queue window (`c`: the command that the store completes, if it does). With an empty engaged set the kernel has
nothing to issue and ends at once (04 R113, R119). -/
def State.pushCommand (s : State) (t : TileId) (e : EngId) (c : Option EngCmd) (bad : Bool) : State :=
  match c with
  | none => s
  | some c =>
    let s := s.work t.val fun w => w.push t e c bad
    let x := s.tile t.val
    if x.kern.zeroLen && x.mayEnd then s.endKernel t.val else s

/-- The opening command is whole and its condition holds: the beat in progress is kernel beat 0, in which it issues unless something else holds the tile (04 R114,
R116). One whose own engine is declared with a later first beat issues in that beat (log 93). -/
def Work.openKernel (w : Work) : Work :=
  let k := w.t.kern
  let whole := ([0, 1, 2, 3] : List EngId).any fun e =>
    let en := w.t.engine e
    en.engaged && (match en.queue with | q :: _ => q.idx == 0 && q.cmd.opening.isSome && q.ready && (q.bad || w.t.condMet q.cmd) | [] => false)
  if k.inKernel && !k.startBeat && !k.opened && !k.stopped && k.heldAs == 0 && k.decl.isSome && whole then
    let first := ([0, 1, 2, 3] : List EngId).any fun e => let en := w.t.engine e
      en.engaged && en.next == 0 && (match en.queue with | q :: _ => q.idx == 0 && q.cmd.opening.isSome | [] => false)
    { w with t := { w.t with kern := { k with opened := true, opening := first }, sched := { w.t.sched with kbeat := 0 } } }
  else w

def execOpeningCommand (t : TileId) (s : State) : Host.Outcome State Fault Refusal :=
  s.inner (if s.isReady then s.work t.val Work.openKernel else s)

/-- Grains that a DOUT's window will have it read, once its descriptors have all been read (06 R191, R521). -/
def outGrains (n : Nat) (op : EngOp) (got : List Piece) : Option Nat :=
  match op, nextDesc op got with
  | .dout _ _ (.window _) _ _ _ _, none => some (match windowOf n got with | .ok win => win.grains | _ => 0)
  | _, _ => none

/-- A descriptor grain joins its command; a further die descriptor is asked for. -/
def Work.gotDesc (w : Work) (n : Nat) (tile : TileId) (e : EngId) (idx : Nat) (d : Piece) : Work :=
  let en := w.t.engine e
  match (en.queue ++ en.buf).find? (·.idx == idx) with
  | none => w
  | some q =>
    let w := { w with t := w.t.setEngine e (en.modCmd idx fun q => { q with got := q.got ++ [d], grains := outGrains n q.cmd.op (q.got ++ [d]) }) }
    match nextDesc q.cmd.op (q.got ++ [d]) with
    | some (.die a) => w.askDesc tile e idx a
    | _ => w

/-- DESCRIPTOR_ARRIVE: a grain in the tile's own scratchpad is read; one of a die address has come back over the mesh. DESIGN CHOICE (log 103): low bits of its address
that are not zero are dropped in the own scratchpad, and kept in a die address. -/
def State.descArrive (s : State) (t : TileId) (e : EngId) (idx : Nat) : State :=
  let en := (s.tile t.val).engine e
  match (en.queue ++ en.buf).find? (·.idx == idx) with
  | none => s
  | some q =>
    match nextDesc q.cmd.op q.got with
    | some (.scratch a) =>
      -- through the tile's remote port (06 R521); past the top a copy of the last grain answers, and no bank is used (06 R187)
      let g := a / 64
      if topGrain < a / 64 then
        s.work t.val fun w => (w.bump cClampHigh 1).gotDesc s.briar.n t e idx w.t.topCopy
      else if !s.portFree t.val (bankOf g) false then s
      else
        s.work t.val fun w =>
          let w := { w with t := w.t.usePort (bankOf g) }
          let r := w.readGrain t.val g
          r.2.gotDesc s.briar.n t e idx r.1
    | some (.die _) =>
      (match s.txns.find? fun x => x.stage == .returned && x.purpose == .desc t e idx with
       | some x => (s.dropTxn x.id).work t.val fun w => w.gotDesc s.briar.n t e idx ⟨padTo 64 x.data.bytes, x.data.poison⟩
       | none => s)
    | none => s

def execDescriptorArrive (t : TileId) (e : EngId) (idx : Nat) (s : State) : Host.Outcome State Fault Refusal :=
  s.inner (if s.isReady then s.descArrive t e idx else s)

/-! ## Issue -/

/-- Engine `e` of a tile issues its due command where `f` recognises it: the rows of the operations share this. -/
def State.issue (s : State) (t : TileId) (e : EngId) (f : QCmd → List Nat → Work → Option Work) : State :=
  if !s.isReady then s
  else
    match (s.tile t.val).issuable e with
    | none => s
    | some q =>
      let w := s.begin t.val
      match f q ((s.tile t.val).engine e).indices { w with t := w.t.setEngine e { w.t.engine e with zeroLen := false } } with
      | none => s
      | some w => s.fromWork t.val { w with t := w.t.issued e q }

def execLoopCountWrite (t : TileId) (e : EngId) (s : State) : Host.Outcome State Fault Refusal :=
  s.inner (s.issue t e fun q _ w =>
    match q.cmd.op with
    | .loopCount r v => some { w with t := w.t.setEngine e { w.t.engine e with counts := SMap.set 0 (w.t.engine e).counts r.val v.toNat } }
    | _ => none)

def execLoop (t : TileId) (e : EngId) (s : State) : Host.Outcome State Fault Refusal :=
  s.inner (s.issue t e fun q _ w =>
    match q.cmd.op with
    | .loop _ _ => some w
    | _ => none)

def execEndEngine (t : TileId) (e : EngId) (s : State) : Host.Outcome State Fault Refusal :=
  s.inner (s.issue t e fun q _ w =>
    match q.cmd.op with
    | .fin => some { w with t := { (w.t.setEngine e { w.t.engine e with ended := true }) with
                                   sched := { w.t.sched with ended := w.t.sched.ended ||| 2 ^ e.val } } }
    | _ => none)

end Sys2Proof.Machine
end

