-- ==== Sys2Proof/Machine/Fabric.lean ====
section
/-!
DEFINITION. Meanings of the mesh family: injection and arrival of packets, remote ports, read-cache fills, arbiters and regulators
(03 R73 to R78, R92 to R97, R104 to R109; 07 R207, R237 to R240; 09 R297; 10 R341; 12 R405, R413), and launches: launch
packets, stream fetches and broadcast words (03 R79 to R83; 04 R119, R136).
-/

namespace Sys2Proof.Machine

/-! ## Routers and classes -/

/-- A coordinate clamped into a block's span (03 R73). -/
def clampTo (lo hi x : Nat) : Nat := max lo (min hi x)

/-- The attachment router of a stack nearest in x (03 R72, R73). -/
def stackRouter (k x : Nat) : Nat × Nat := (clampTo (4 * (k % 4)) (4 * (k % 4) + 3) x, if k < 4 then 0 else 7)

/-- Router of a hedge's sequencer (03 R71). -/
def hedgeRouter (h : Nat) : Nat × Nat := ((if h % 4 < 2 then 4 * (h % 4) + 1 else 4 * (h % 4) + 2), if h < 4 then 1 else 6)

/-- Router of a Briar port: E1, E2, W1, W2 (03 R72). -/
def briarRouter (b : Nat) : Nat × Nat := (if b < 2 then 15 else 0, if b % 2 = 0 then 0 else 7)

/-- Router at which an agent injects, for a packet towards or from `far` (03 R72, R73). DESIGN CHOICE (log 48): a packet that a unit itself sends enters by the router of its
stack nearest `far`, as R73 says of packets addressed to the block. -/
def Agent.router (a : Agent) (far : Nat × Nat) : Nat × Nat :=
  match a with
  | .engine t _ => (tileX t.val, tileY t.val)
  | .core t => (tileX t.val, tileY t.val)
  | .hedge h => hedgeRouter h.val
  | .laurel => (15, 2)
  | .selector p => if p then (15, 5) else (0, 2)
  | .copy p => if p then (15, 5) else (0, 2)
  | .host p => if p then (15, 5) else (0, 2)
  | .housekeeping => (0, 5)
  | .unit u => stackRouter (u.val / 64) far.1
  | .remote _ => (0, 0)

/-- Router at which an access of an agent enters the mesh: a remote module's by the Briar port that its request came by. -/
def Txn.entry (q : Txn) (far : Nat × Nat) : Nat × Nat :=
  match q.agent with
  | .remote _ => briarRouter q.via
  | a => a.router far

/-- Router of an address's home as met from a packet whose source router is `src` (03 R73). -/
def homeRouter (a : Nat) (src : Nat × Nat) : Nat × Nat :=
  match placeOf a with
  | .tier k off => if k < 8 then stackRouter k src.1 else (if off < 0x600000000 then 0 else 15, clampTo 3 4 src.2)
  | .scratch t _ => (tileX t, tileY t)
  | .control off =>
    if laurelBase ≤ off then (15, 2)
    else if off < 0x80000 then (tileX (off / 0x1000), tileY (off / 0x1000))
    else if 0x100000 ≤ off ∧ off < 0x190000 then
      (let k := (off - 0x100000) / 0x10000
       if k < 8 then stackRouter k src.1 else (0, clampTo 3 4 src.2))
    else if 0x200000 ≤ off ∧ off < 0x280000 then (tileX ((off - 0x200000) / 0x1000), tileY ((off - 0x200000) / 0x1000))
    else if 0x4000000 ≤ off ∧ off < 0x4020000 then stackRouter ((off - 0x4000000) / 0x4000) src.1
    else if 0x4100000 ≤ off ∧ off < 0x4180000 then stackRouter ((off - 0x4100000) / 0x10000) src.1
    else if 0x5000000 ≤ off ∧ off < 0x7000000 then stackRouter ((off - 0x5000000) / 0x400000) src.1
    else (0, 5)
  | .unmapped => src

/-- Is a die address one of a unit's command registers (03 R75)? -/
def unitAreaAt (a : Nat) : Bool :=
  match placeOf a with
  | .control off => decide (0x4000000 ≤ off) && decide (off < 0x4020000)
  | _ => false

/-- Traffic class of a request: 0 request, 1 command: the fetches of streams and the writes to units' command registers (03 R75). -/
def Txn.cls (q : Txn) : Nat :=
  match q.purpose with
  | .stream _ _ _ => 1
  | _ => if q.kind == .write && unitAreaAt q.dest.addr then 1 else 0

/-- Source and destination router of a packet on the mesh, and its class (2 for a response). One for another module goes to the router of the Briar port by which it
leaves. -/
def Txn.route (q : Txn) : Nat × (Nat × Nat) × (Nat × Nat) :=
  let src0 := q.entry (0, 0)
  let home := (match q.dest.module with
    | some _ => briarRouter q.via
    | none => homeRouter q.dest.addr src0)
  let src := q.entry home
  if q.stage == .responding then (2, home, src) else (q.cls, src, home)

/-- Routers on the way from one router to another: first along x, then along y (03 R74). -/
def onPath (src dst r : Nat × Nat) : Bool :=
  (r.2 == src.2 && decide (min src.1 dst.1 ≤ r.1) && decide (r.1 ≤ max src.1 dst.1)) ||
  (r.1 == dst.1 && decide (min src.2 dst.2 ≤ r.2) && decide (r.2 ≤ max src.2 dst.2))

/-- Is an access to an address that nothing answers (07 R206, R207; 11 R356)? -/
def State.unmapped (s : State) (q : Txn) : Bool :=
  match placeOf q.dest.addr with
  | .unmapped => true
  | .control off =>
    (match q.kind with
     | .read => !s.controlMapped off false
     | .write => !s.controlMapped off true
     | .combine _ => !(s.controlMapped off false && s.controlMapped off true))
  | _ => false

/-! ## MESH_PACKET_INJECT, RELEASE_INJECT -/

/-- The tile of an outbound access. -/
def Txn.tile? (q : Txn) : Option Nat := q.agent.tile?

/-- Does a release of the same tile, issued earlier, wait before this outbound write (09 R297): one asked for, one whose grains are still to be read, or an AMO with rl on which
the core stalls (09 R303)? -/
def State.behindRelease (s : State) (q : Txn) : Bool :=
  q.kind != .read && (match q.tile? with
    | none => false
    | some t =>
      (s.txns.any fun x => decide (x.sentAt < q.sentAt) && x.rel.isSome && x.tile? == some t && (x.stage == .held || x.stage == .queued)) ||
      ((s.tile t).ops.any fun o => decide (o.at_ < q.sentAt) && (ordRel o.ord).isSome && (o.left != 0 || !o.srcs.isEmpty)) ||
      (match (s.tile t).core.relAt with | some r => decide (r.1 < q.sentAt) && q.agent != .core (Fin.ofNat 128 t) | none => false))

/-- Does an earlier scatter of the same engine still have to read a source grain that it sends to this grain (09 R290)? -/
def State.behindScatter (s : State) (q : Txn) : Bool :=
  match q.agent with
  | .engine t e =>
    (s.tile t.val).ops.any fun o => o.eng == e && decide (o.at_ < q.sentAt) &&
      o.srcs.any fun x => x.dests.any fun d => d.1.module == q.dest.module && d.1.addr / 64 == q.dest.addr / 64
  | _ => false

/-- May a packet be injected? -/
def State.injectable (s : State) (q : Txn) : Bool := q.stage == .queued && !s.behindRelease q && !s.behindScatter q

/-- Do the accesses `ids` of a unit leave in the order of its result's grains (08 R248), and Laurel's in the order of its tails (11 R375)? -/
def State.inTurn (s : State) (a : Agent) (ids : List Nat) : Bool :=
  match a with
  | .unit _ | .laurel => ((s.txns.filter fun x => x.agent == a && x.stage == .queued).map (·.id)).take ids.length == ids
  | _ => true

/-- What a tile's write does on its way out: its cache line is invalidated (03 R97), and a grain of the DMA engine's outbound buffer is free once its last piece
leaves (04 R120). -/
def Tile.outbound (t : Tile) (q : Txn) (lastPiece : Bool) : Tile :=
  let t := if q.kind == .read then t else if q.dest.module.isNone then t.cacheDrop (q.dest.addr / 64) else t
  if q.slot.isSome && lastPiece then { t with outUsed := t.outUsed - 1 } else t

/-- Fills of a grain asked for before bring a line that the tile's own write has made old (09 R291). -/
def Txn.aged (x : Txn) (t g : Nat) : Txn := if x.fill && x.agent.tile? == some t && x.dest.addr / 64 == g then { x with stale := true } else x

/-- One grain's access enters the mesh, or is refused by the injection port (07 R207). -/
def State.injectOne (s : State) (pkt id : Nat) : State :=
  match s.txn? id with
  | none => s
  | some q =>
    let rest := s.txns.filter (·.id != id)
    let last := !(rest.any fun x => x.purpose == q.purpose && x.slot == q.slot && (x.stage == .held || x.stage == .queued))
    let s := (match q.tile? with | some t => s.modTile t fun x => x.outbound q last | none => s)
    let rest := (match q.tile? with
      | some t => if q.kind == .read || q.dest.module.isSome then rest else rest.map fun x => x.aged t (q.dest.addr / 64)
      | none => rest)
    if q.dest.module.isNone && s.unmapped q then
      ({ s with txns := rest ++ [{ q with stage := .responding, status := 1, pkt := pkt, data := ⟨noData (if q.fill then 64 else q.len), true⟩ }] }).modCount 0x7209 1 1
    else { s with txns := rest ++ [{ q with stage := .flying, pkt := pkt }] }

/-- The port of the packet: for another module, that of the route in force (12 R407); a request of another module keeps the one it came by. -/
def State.viaOf (s : State) (q : Txn) : Txn := match q.dest.module with | some m => { q with via := s.outPort m } | none => q

/-- A packet of up to four grains of one agent, one class and one way enters the mesh (03 R77). -/
def State.inject (s : State) (ids : List Nat) : State :=
  let qs := (ids.filterMap s.txn?).map s.viaOf
  match qs with
  | [] => s
  | q :: r =>
    if decide (ids.length ≤ 4) && qs.length == ids.length && qs.all s.injectable && s.inTurn q.agent ids
        && r.all (fun x => x.agent == q.agent && x.kind == q.kind && x.cls == q.cls && x.dest.module == q.dest.module && x.route == q.route) then
      -- a host's access to memory takes the mesh out of idle; a maintenance access does not (04 R142, R143)
      let s := (match q.agent with | .host _ => if q.maintains then s else s.leaveQuiet | _ => s)
      ids.foldl (fun s id => (s.modTxn id s.viaOf).injectOne (q.id + 1) id) s
    else s

def execMeshPacketInject (ids : List Nat) (s : State) : Host.Outcome State Fault Refusal :=
  s.inner (if s.isReady then s.inject ids else s)

/-- Is an offset of the control range in a unit's command register area or buffer, or in a broadcast window, which writes buffers (08 R243)? -/
def unitPlace (off : Nat) : Bool :=
  (decide (0x4000000 ≤ off) && decide (off < 0x4020000)) || (decide (0x4100000 ≤ off) && decide (off < 0x4180000)) ||
    (decide (0x5000000 ≤ off) && decide (off < 0x7000000))

/-- Does a home lie in the home set of a scope of a tile (09 R295)? The other registers of the die control window, and what is unmapped, lie in none; another module's homes
are as this one's, for the ring scope alone. -/
def inHomeSet (scope tile : Nat) (f : FarAddr) : Bool :=
  (f.module.isNone || decide (4 ≤ scope)) &&
    (match placeOf f.addr with
     | .scratch t _ => if scope = 0 then t == tile else if scope = 1 then hedgeOf t == hedgeOf tile else true
     | .tier _ _ => decide (2 ≤ scope)
     | .control off => if laurelBase ≤ off then decide (2 ≤ scope) else unitPlace off && decide (3 ≤ scope)
     | .unmapped => false)

/-- What asks how much is owed, with BEAT_COUNT and kernel beat at its issue: a release operation, or the tile's core. -/
inductive Releaser where
  | op (id at_ issue : Nat)
  | core (at_ issue : Nat)
  deriving DecidableEq, Repr

/-- The far places of the grains of a DOUT that are still to be read, and of a scatter's whose index grains have been. -/
def OpRec.places (ring : RingAt) (tile : Nat) (o : OpRec) : List FarAddr :=
  (o.srcs.flatMap fun x => x.dests.map (·.1)) ++
  (if o.left = 0 then [] else
    match o.op with
    | .dout g _ (.plain _) _ _ _ _ => (List.range (g + 1)).map fun j => ⟨none, (o.bases.getD 0 0 + 64 * j) % 2 ^ 64⟩
    | .dout g _ (.window _) _ _ _ _ =>
      (match windowOf ring.n o.descs with
       | .ok w => ((w.pieces ring.n ring.pos (min g w.grains) true).flatMap (·.at_)).map (farIn tile w.d.isLocal)
       | _ => [])
    | _ => [])

/-- Is a write issued by the tile before the releaser, in an earlier kernel beat or kernel, in the scope's home set and not yet performed (09 R297)? A write whose
home has returned its completion is; the tile's own scratchpad is in every scope's home set, and a write to it is performed when it lands. The core counts its own
earlier stores too (09 R303). -/
def State.owes (s : State) (tile scope : Nat) (r : Releaser) : Bool :=
  let x := s.tile tile
  let before (at_ : Nat) : Bool := (match r with | .op _ b _ => decide (at_ < b) | .core b _ => decide (at_ < b))
  let beatBefore (k : Nat) : Bool := (match r with | .op _ _ b => decide (k < b) | .core _ b => decide (k < b))
  let self (p : TxFor) : Bool := (match r, p with | .op i _ _, .outbound _ j => i == j | _, _ => false)
  (s.txns.any fun q => q.tile? == some tile && q.kind != .read && !self q.purpose && q.stage != .returned && inHomeSet scope tile q.dest &&
    (before q.sentAt || (match r, q.agent with | .core _ _, .core _ => true | _, _ => false))) ||
  (x.writes.any fun w => beatBefore w.issue) ||
  (x.ops.any fun o => (match r with | .op i _ _ => o.id != i | .core _ _ => true) && before o.at_ &&
    (o.grains.any (fun g => !g.landed) ||
     (match o.op with
      | .tstore .. => o.left != 0
      | .glocal .. => o.left != 0
      | .dlocal .. => o.left != 0
      | .gremote .. => o.left != 0
      | .scatter .. => o.left != 0 || (o.places s.ring tile).any (inHomeSet scope tile)
      | .dout .. => (o.places s.ring tile).any (inHomeSet scope tile)
      | _ => false)))

/-- RELEASE_INJECT: the release of operation `op` leaves the injection port once nothing in its home set is owed; all of it is let go (09 R296, R297). -/
def State.releaseInject (s : State) (t op : Nat) : State :=
  let mine (x : Txn) : Bool := x.stage == .held && x.tile? == some t && (match x.purpose with | .outbound _ o => o == op | _ => false)
  match s.txns.find? mine with
  | none => s
  | some q =>
    let issue := (((s.tile t).ops.find? (·.id == op)).map (·.issue)).getD (s.tile t).sched.kbeat
    if s.owes t (q.rel.getD 2) (.op op q.sentAt issue) then s
    else { s with txns := s.txns.map fun x => if mine x then { x with stage := .queued } else x }

def execReleaseInject (t : TileId) (op : Nat) (s : State) : Host.Outcome State Fault Refusal :=
  s.inner (if s.isReady then s.releaseInject t.val op else s)

/-! ## MESH_PACKET_ARRIVE -/

/-- Is a response of a packet whose other grains their homes have still to serve: it leaves with them (03 R77)? -/
def partial? (l : List Txn) (q : Txn) : Bool :=
  q.stage == .responding && l.any fun x => x.pkt == q.pkt && x.stage.before

/-- Does an earlier packet of the class, between the same routers, come first (03 R76)? -/
def aheadOf (l : List Txn) (q : Txn) : Bool :=
  (l.takeWhile (·.id != q.id)).any fun x => x.stage == q.stage && x.route == q.route && x.pkt != q.pkt && !partial? l x

/-- A router finds a header with a double-bit error: the packet is discarded, all its grains (15 R482). The class is numbered in the order of 03 R75. -/
def State.packetLost (s : State) (q : Txn) (router : Nat) : State :=
  let c := (match q.route.1 with | 1 => 0 | 0 => 1 | _ => 2)
  let s := ({ s with txns := s.txns.filter fun x => !(x.stage == q.stage && x.pkt == q.pkt) }).post { code := 0x33, source := router % 128, args := [router, c] }
  { s with totals := { s.totals with meshLost := inc32 s.totals.meshLost } }

/-- Bytes of an operation have been performed at their destination (10 R332). -/
def HostOp.moved (o : HostOp) (n : Nat) (poison unchecked : Bool) : HostOp :=
  let o := { o with left := o.left - n, bytes := satAdd 32 o.bytes n, poisoned := o.poisoned || poison, unchecked := o.unchecked || unchecked }
  if o.left = 0 then o.finish 0 0 0 else o

/-- Does a copy's data that goes to the host wait at its port for tokens (10 R341)? -/
def State.copyPoor (s : State) (q : Txn) : Bool :=
  match q.purpose, q.part with
  | .copy _ _, some p => q.stage == .responding && q.kind == .read && !s.mayPass (some p) 18
  | _, _ => false

/-- A copy's die access has come back: data on its way to the host leaves through the port, with EP where poisoned (10 R335, R336), and is charged. -/
def State.copyBack (s : State) (q : Txn) (op off : Nat) : State :=
  match s.op? op with
  | none => s
  | some o =>
    if q.kind == .read then
      let s := (s.charge o.part 18 q.data.bytes.length).emit (.hostWrite o.port ((fieldAt o.desc 8 8 + off) % 2 ^ 64) q.data.bytes q.data.poison)
      s.modOp op fun o => o.moved q.len q.data.poison q.unchecked
    else s.modOp op fun o => o.moved q.data.bytes.length false false

/-- A piece of a host's read has come back: the last one completes it, with EP where any is poisoned (10 R321). -/
def State.hostBack (s : State) (p : PortId) (id off : Nat) (d : Piece) : State :=
  match (s.port p).reads.find? (·.id == id) with
  | none => s
  | some x =>
    let x := { x with left := x.left - 1, got := x.got ++ [(off, d)] }
    if x.left = 0 then
      (s.modPort p fun y => { y with reads := y.reads.filter (·.id != id) }).emit
        (.completion p 0 (x.got.foldl (fun b e => putAt b e.1 e.2.bytes) (zeros x.len)) (x.got.any (·.2.poison)))
    else s.modPort p fun y => { y with reads := y.reads.map fun z => if z.id = id then x else z }

/-- A run-list write of the step has been acknowledged (11 R375). -/
def StepSt.acked (x : StepSt) (id : Nat) : StepSt := { x with tails := x.tails.filter (·.txn != id) }

/-- A record has been spilled, or its write refused (15 R492). -/
def State.spilled (s : State) (seq : Nat) (done : Bool) : State :=
  if done then { s with log := { s.log.markRead seq with spilled := add64 s.log.spilled 1 } }
  else { s with log := { s.log with refused := inc32 s.log.refused } }

/-- Moves an access on to a stage, behind those that are there. -/
def State.stageTxn (s : State) (q : Txn) (st : Stage) : State :=
  { s with txns := s.txns.filter (·.id != q.id) ++ [{ q with stage := st }] }

/-- Does a command of a tile wait for a descriptor grain? -/
def Tile.awaits (t : Tile) (e : EngId) (idx : Nat) : Bool := ((t.engine e).queue ++ (t.engine e).buf).any (·.idx == idx)

/-- May the data of a response still fill a line: asked for since the last full invalidation, and since the tile's last write of the grain (09 R291)? -/
def Txn.fresh (q : Txn) (t : Tile) : Bool := q.fill && !q.stale && q.gen == t.cacheGen && !q.data.poison && q.status == 0

/-- What an inbound access brings its operation: of a line, the bytes asked for. -/
def Txn.piece (q : Txn) : Piece :=
  if q.fill then ⟨(q.data.bytes.drop (q.dest.addr % 64)).take q.len, q.data.poison⟩ else ⟨padTo q.len q.data.bytes, q.data.poison⟩

/-- A response reaches who waits for it. -/
def State.receive (s : State) (q : Txn) : State :=
  let gone := s.dropTxn q.id
  match q.purpose with
  | .inbound t op targets =>
    -- a line's data reaches the operation with the line's fill (09 R290)
    if q.fresh (s.tile t.val) then s.stageTxn q .returned else gone.work t.val fun w => w.deliver op targets q.piece q.unchecked
  | .outbound t op => gone.work t.val fun w => w.modOp op fun o => { o with acks := o.acks - 1, unchecked := o.unchecked || q.unchecked }
  | .desc t e idx => if (s.tile t.val).awaits e idx then s.stageTxn q .returned else gone
  | .stream _ _ _ => s.stageTxn q .returned
  | .store _ => gone
  | .copy op off => gone.copyBack q op off
  | .result u => gone.modUnit u.val fun x => { x with running := x.running.map fun r => { r with acks := r.acks - 1 } }
  | .host id off => (match q.agent with | .host p => gone.hostBack p id off ⟨padTo q.len q.data.bytes, q.data.poison⟩ | _ => gone)
  | .spill seq => gone.spilled seq (q.status == 0)
  | .posted => { gone with laurel := { gone.laurel with step := gone.laurel.step.acked q.id } }
  | .briar req slot => gone.pieceDone q req slot

/-- Does an earlier access of the agent to the same grain of another module not have left yet (09 R313)? -/
def State.behindOut (s : State) (q : Txn) : Bool :=
  q.dest.module.isSome && s.txns.any fun x => x.earlier q && x.agent == q.agent && x.dest.module == q.dest.module &&
    x.dest.addr / 64 == q.dest.addr / 64 && (x.stage == .held || x.stage == .queued || x.stage == .flying)

/-- One grain of a packet comes out of the mesh. -/
def State.arriveOne (s : State) (id : Nat) : State :=
  match s.txn? id with
  | none => s
  | some q =>
    if q.stage == .responding then s.receive q
    else if q.dest.module.isSome then (if s.behindOut q then s else s.toBriar q)
    else s.stageTxn q .atHome

/-- Does a grain's part of a packet carry data: a write or an atomic on its way, a read's or an atomic's response? -/
def Txn.laden (q : Txn) : Bool := (q.stage == .flying && q.kind != .read) || (q.stage == .responding && q.kind != .write)

/-- A word of a packet's data has bad parity: it poisons its grain (15 R482). -/
def State.payloadBad (s : State) (q : Txn) : State :=
  if q.laden then
    { s with
      txns := s.txns.map fun x => if x.id = q.id then { x with data := { x.data with poison := true } } else x
      totals := { s.totals with parity := satAdd 32 s.totals.parity 1 } }
  else s

/-- The grains of a packet come out of the mesh together. -/
def State.arriveAll (s : State) (q : Txn) : State :=
  ((s.txns.filter fun x => x.stage == q.stage && x.pkt == q.pkt).map (·.id)).foldl State.arriveOne s

/-- A packet leaves the mesh at its destination, or is lost at a router of its way (03 R74, 15 R482). -/
def State.arrivePacket (s : State) (id : Nat) (lost : Option MeshErr) : State :=
  match s.txn? id with
  | none => s
  | some q =>
    if aheadOf s.txns q || partial? s.txns q || s.copyPoor q || !(q.stage == .flying || q.stage == .responding) then s
    else
      match lost with
      | some (.header r) => if onPath q.route.2.1 q.route.2.2 (r % 16, r / 16) then s.packetLost q r else s
      | some (.payload i) => (match s.txn? i with
          | some x => if x.stage == q.stage && x.pkt == q.pkt then (s.payloadBad x).arriveAll q else s.arriveAll q
          | none => s.arriveAll q)
      | none => s.arriveAll q

def execMeshPacketArrive (txn : Nat) (lost : Option MeshErr) (s : State) : Host.Outcome State Fault Refusal :=
  s.inner (if s.isReady then s.arrivePacket txn lost else s)

/-! ## CACHE_FILL (03 R95, R96) -/

/-- Fill a line of the set: an empty way first, else the way that the replacement picks. -/
def Tile.fillLine (t : Tile) (grain : Nat) (data : List Byte) (unchecked : Bool) : Tile :=
  let set := grain % 256
  let line : CLine := ⟨grain, data, unchecked, 0⟩
  match t.cacheFind grain with
  | some (k, _) => { t with cache := SMap.set none t.cache k (some line) }
  | none =>
    let way := ((List.range 8).find? fun w => (SMap.get none t.cache (8 * set + w)).isNone).getD (Config.plruWay (SMap.get 0 t.plru set) % 8)
    { t with cache := SMap.set none t.cache (8 * set + way) (some line), plru := SMap.mod 0 t.plru set fun h => 8 * h + way }

/-- A fill brings its operation what it asked for, and takes its line where it is still fresh; fills of one grain in the order in which they came back, so that cacheable
reads never go backwards (09 R290, R291). -/
def State.cacheFill (s : State) (t id : Nat) : State :=
  match s.txn? id with
  | some q =>
    let first := !((s.txns.takeWhile (·.id != id)).any fun x => x.stage == .returned && x.fill && x.tile? == some t && x.dest.addr / 64 == q.dest.addr / 64)
    if q.stage == .returned && q.fill && q.tile? == some t && first then
      let s := s.dropTxn id
      let s := if q.fresh (s.tile t) then s.modTile t fun x => x.fillLine (q.dest.addr / 64) (padTo 64 q.data.bytes) q.unchecked else s
      match q.purpose with
      | .inbound _ op targets => s.work t fun w => w.deliver op targets q.piece q.unchecked
      | _ => s
    else s
  | none => s

def execCacheFill (t : TileId) (txn : Nat) (s : State) : Host.Outcome State Fault Refusal :=
  s.inner (if s.isReady then s.cacheFill t.val txn else s)

/-! ## Remote ports and landings (03 R92 to R94, 04 R117, R118) -/

/-- Has the last grain of a remote write that names a tally landed, once access `id` has? -/
def State.lastOfWrite (s : State) (q : Txn) (t : Nat) : Bool :=
  match q.purpose with
  | .outbound src op =>
    ((s.tile src.val).ops.all fun o => o.id != op || o.left == 0) &&
      !(s.txns.any fun x => x.id != q.id && x.purpose == q.purpose && x.stage.before && (match placeOf x.dest.addr with | .scratch u _ => u == t | _ => false))
  | .briar r _ => !(s.txns.any fun x => x.id != q.id && (match x.purpose with | .briar y _ => y == r | _ => false) && x.stage.before)
  | p => !(s.txns.any fun x => x.id != q.id && x.purpose == p && x.stage.before)

/-- The tally that a remote write or combine names counts after its last grain (04 R117, 12 R408). -/
def State.landTally (s : State) (q : Txn) (t : Nat) : State :=
  match q.rtally with
  | some n => if s.lastOfWrite q t then s.modTile t fun x => { x with landed := x.landed ++ [n] } else s
  | none => s

/-- Tags of a scratchpad's remote port (09 R304): 64 entries. -/
def State.portTag (s : State) (t grain : Nat) (r : Option RelTag) : State :=
  { s with tileTags := SMap.set [] s.tileTags t (tagUpdate 64 (SMap.get [] s.tileTags t) grain r) }

/-- The request of several grains of which the remote port has now served grain `g`. -/
def State.burstAfter (s : State) (q : Txn) (t g : Nat) : Option (Nat × Nat) :=
  if s.txns.any fun x => x.id != q.id && x.stage == .atHome && x.pkt == q.pkt &&
      (match placeOf x.dest.addr with | .scratch u off => u == t && off / 64 == g + 1 | _ => false) then some (q.pkt, g + 1) else none

/-- The remote port performs an access of one grain at tile `t`'s scratchpad. -/
def State.serveAt (s : State) (q : Txn) (t off : Nat) : State :=
  let next := s.burstAfter q t (off / 64)
  let s := s.modTile t fun x => { x.usePort (bankOf (off / 64)) with burst := next }
  match q.kind with
  | .read =>
    let w := (s.begin t).readGrain t (off / 64)
    let s := s.fromWork t w.2
    let tag := ((SMap.get [] s.tileTags t).find? (·.1 == off / 64)).map (·.2)
    let s := (match q.agent with | .remote _ => s | _ => s.checkTag q tag)
    s.respond q.id ⟨(w.1.bytes.drop (off % 64)).take q.len, w.1.poison⟩ (if w.1.poison then 5 else 0) false (if q.acq.isSome then tag else none)
  | .write =>
    let s := (s.work t fun w => w.writeBytes t off q.data).portTag t (off / 64) (s.relTag q)
    (s.landTally q t).respond q.id {} 0 false none
  | .combine c =>
    let n := q.data.bytes.length
    let w := (s.begin t).atomicBytes t off n q.data.poison (combineBytes c q.data.bytes)
    let s := (s.fromWork t w.2).landTally q t
    if w.1.poison then s.respond q.id w.1 5 false none
    else
      let s := s.credit 4 (if q.data.poison then 0 else overCount c q.data.bytes w.1.bytes)
      let s := if q.rel.isSome then s.portTag t (off / 64) (s.relTag q) else s
      s.respond q.id w.1 0 false none

/-- May the remote port of `t` serve access `q` at a bank: the next grain of the request that it has begun, or any when it has begun none (03 R92, R94)? -/
def State.portTakes (s : State) (t : Nat) (q : Txn) (bank : Nat) : Bool :=
  (s.tile t).slotFree bank (q.kind != .read) && (match s.burstNext t with | some x => x.id == q.id | none => true)

/-- The remote port of `t` serves access `id`, where `want` allows its kind. -/
def State.portServe (s : State) (t id : Nat) (want : TxKind → Bool) : State :=
  match s.ready id want with
  | none => s
  | some q =>
    match placeOf q.dest.addr with
    | .scratch u off => if u = t && s.portTakes t q (bankOf (off / 64)) then s.serveAt q t off else s
    | _ => s

def execRemotePortGrant (t : TileId) (txn : Nat) (s : State) : Host.Outcome State Fault Refusal :=
  s.inner (if s.isReady then s.portServe t.val txn fun _ => true else s)

/-- Scheduled accesses of this beat: in a held beat there are none (04 R114). -/
def Tile.dueWrites (t : Tile) : List SWrite := if t.kern.inKernel && t.holdCauseNow = 0 then t.writes.filter (·.beat == t.sched.kbeat) else []

/-- A grain of the tile's own inbound transfer lands in banks that no scheduled write and no remote access takes; through its engine's write port go up to four
grains in a beat, scheduled writes included (03 R84, 04 R118). What lies past the top is discarded, and takes no bank. -/
def State.landOwn (s : State) (t op g : Nat) : State :=
  let x := s.tile t
  match x.ops.find? (·.id == op) with
  | none => s
  | some o =>
    match o.grains[g]? with
    | none => s
    | some n =>
      let all := grainsAt n.addr 64
      let gs := all.filter fun g => decide (g ≤ topGrain)
      let slot := (if x.kern.inKernel && x.holdCauseNow = 0 then [x.sched.kbeat % 16] else x.remoteUse.toList) ++
        (s.burstNext t).toList.map fun q => bankOf (q.dest.addr / 64)
      let due := x.dueWrites.map fun w => (w.eng, grainsAt w.addr w.data.bytes.length)
      let taken := slot ++ x.bankUse.map (· % 16) ++ due.flatMap fun w => w.2.map bankOf
      let used := (x.bankUse.countP fun b => b / 16 == o.eng.val) + ((due.filter (·.1 == o.eng)).flatMap (·.2)).eraseDups.length
      if n.landed || n.missing != 0 || decide (4 < used + gs.length) || gs.any (fun g => taken.contains (bankOf g)) then s
      else
        s.work t fun w =>
          let room := 64 * (topGrain + 1) - n.addr
          let w := (w.bump cClampHigh (all.length - gs.length)).writeBytes t n.addr ⟨n.data.bytes.take room, n.data.poison⟩
          let w := { w with t := w.t.fixBeat }
          { w with t := { w.t with
              bankUse := w.t.bankUse ++ gs.map fun g => 16 * o.eng.val + bankOf g
              ops := w.t.ops.map fun o => if o.id = op then { o with grains := o.grains.set g { n with landed := true } } else o } }

def execInboundGrainLand (t : TileId) (g : LandOf) (s : State) : Host.Outcome State Fault Refusal :=
  s.inner (if s.isReady then
    (match g with
     | .own op n => s.landOwn t.val op n
     | .remote id => s.portServe t.val id fun k => k == .write)
    else s)

/-! ## Arbiters (03 R104 to R109) -/

/-- An arbiter's class, as a subindex of OD 0x5080 (03 R108): routers and injection ports, remote ports, hedge inputs, memory and Laurel, PCIe and Briar. The
island's attachment is not in the table: the model takes the mesh's. -/
def arbClass (a : Nat) : Nat :=
  if a < 2048 then (if a % 16 = 8 then 2 else 1)
  else
    let b := a - 2048
    if b ≤ 10 then 4 else if b ≤ 16 then 5 else if b = 17 then 1 else 3

/-- N of an arbiter. -/
def State.arbN (s : State) (a : Nat) : Nat := s.odNow 0x5080 (arbClass a)

/-- Is an input or output of a router there (03 R72, 10 R323): north, east, south, west, local, first outward, second outward or inward? -/
def routerHas (x y i : Nat) : Bool :=
  match i with
  | 0 => decide (0 < y)
  | 1 => decide (x < 15)
  | 2 => decide (y < 7)
  | 3 => decide (0 < x)
  | 4 => true
  | 5 => y == 0 || y == 7 || ((x == 0 || x == 15) && decide (2 ≤ y) && decide (y ≤ 5))
  | 6 => ((x == 0 || x == 15) && (y == 0 || y == 7)) || (List.range 8).any fun h => hedgeRouter h == (x, y)
  | _ => false

/-- Requesters of an arbiter that is no router's: a stack port has its four attachment routers and Laurel's command path (03 R109), a board-tier half its two routers, a
Briar port the three other ports and its own module (12 R405), every other its one attachment router. -/
def arbInputs (b : Nat) : Nat := if b < 8 then 5 else if b < 10 then 2 else if 13 ≤ b ∧ b ≤ 16 then 4 else 1

/-- Is requester `r` of arbiter `a` there, and the arbiter's output (10 R323)? -/
def arbHas (a r : Nat) : Bool :=
  if a < 2048 then
    let t := a / 16
    let o := a % 16
    if o < 7 then routerHas (t % 16) (t / 16) o && routerHas (t % 16) (t / 16) r else if o = 7 then decide (r < 5) else decide (r < 4)
  else decide (r < arbInputs (a - 2048))

/-- The settable priority of a requester (03 R106, R110, 10 R323): Laurel, the island, port A and port B at the outputs of their attachment routers, and Laurel's command
path at the stack ports. -/
def State.arbPrio (s : State) (a r : Nat) : Nat :=
  if a < 2048 then
    if decide (a % 16 < 7) && r == 5 then
      (match a / 16 % 16, a / 256 with
       | 15, 2 => s.odv 0x5081 1
       | 0, 5 => s.odv 0x5081 2
       | 0, 2 => s.odv 0x5081 3
       | 15, 5 => s.odv 0x5081 4
       | _, _ => 0)
    else 0
  else if a - 2048 < 8 ∧ r = 4 then s.odv 0x5081 1 else 0

/-- The requester of a Briar port's arbiter that is the module's own injection; those before it are the other three ports' transit (12 R405). -/
def ownInput : Nat := 3

/-- The fixed rank of a request (03 R106): by class at mesh link outputs, transit before own at Briar ports. -/
def arbRank (a : Nat) (i : ArbIn) : Nat :=
  if a < 2048 then (if a % 16 < 4 then i.cls else 0)
  else if 13 ≤ a - 2048 ∧ a - 2048 ≤ 16 then b2n (i.req != ownInput) else 0

/-- The bucket that a request is charged to at an arbiter: stack, board half, PCIe direction or Briar port (07 R238, 10 R341, 12 R413). -/
def bucketOf (a : Nat) (i : ArbIn) : Option Nat :=
  if a < 2048 then none
  else
    let b := a - 2048
    if b < 8 then some b
    else if b < 10 then some (16 + (b - 8))
    else if b = 11 ∨ b = 12 then some (if i.toHost then 18 else 19)
    else if 13 ≤ b ∧ b ≤ 16 then (if i.req = ownInput then some (20 + (b - 13)) else none)
    else none

/-- Has a request tokens, or needs none? -/
def State.hasTokens (s : State) (a : Nat) (i : ArbIn) : Bool :=
  match i.part, bucketOf a i with
  | some p, some b => s.paid p.val b
  | _, _ => true

/-- Waiting beats of a requester. -/
def Arb.req (x : Arb) (r : Nat) : ArbReq := SMap.get {} x.reqs r

/-- The winner among eligible requests: the longest waiting for a starvation grant, else the highest rank, then priority, then round robin. -/
def arbPick (x : Arb) (starve : Bool) (rank prio : ArbIn → Nat) (l : List ArbIn) : Option ArbIn :=
  let better (i j : ArbIn) : Bool :=
    if starve then
      let wi := (x.req i.req).eligible
      let wj := (x.req j.req).eligible
      decide (wj < wi) || (wi == wj && decide (i.req < j.req))
    else
      let ki := 4 * rank i + prio i
      let kj := 4 * rank j + prio j
      decide (kj < ki) || (ki == kj && decide ((i.req + 15 - x.last) % 8 < (j.req + 15 - x.last) % 8))
  l.foldl (fun b i => match b with | none => some i | some j => if better i j then some i else some j) none

/-- A wait ends: LONGEST_WAIT and the dictionary's longest. -/
def Arb.note (x : Arb) (r : Nat) : Arb :=
  let q := x.req r
  let q' : ArbReq := { q with longest := min (max q.longest q.waiting) (2 ^ 32 - 1), waiting := 0, eligible := 0, requesting := false }
  { x with longest := min (max x.longest q.waiting) (2 ^ 32 - 1), reqs := SMap.set {} x.reqs r q' }

/-- A request has waited one beat more, `able` to be granted or not: the starvation bound runs from the beat of eligibility (07 R239). -/
def Arb.wait (x : Arb) (r : Nat) (able : Bool) : Arb :=
  let q := x.req r
  let q : ArbReq := { q with waitBeats := add64 q.waitBeats 1, waiting := q.waiting + 1, eligible := if able then q.eligible + 1 else 0, requesting := true }
  { x with reqs := SMap.set {} x.reqs r q }

/-- One grant decision of an arbiter with the requests that stand before it: the winner, and what the decision leaves. The grant of an access in flight at the port of its
memory charges its packet; one that no such decision has granted is granted, and charged, by the row that performs it (log 96). -/
def State.arbDecide (s : State) (a : Nat) (rs : List ArbIn) : Option ArbIn × State :=
  let x := s.arb a
  -- requesters that no longer ask have withdrawn: their wait starts again from zero
  let x := (List.range 8).foldl (fun x r => if (x.req r).requesting && !rs.any (·.req == r) then x.note r else x) x
  let full := rs.filter (s.hasTokens a)
  let borrowed (i : ArbIn) : Bool := full.isEmpty && (match i.part with | some p => s.borrows p.val | none => false)
  let able := rs.filter fun i => s.hasTokens a i || borrowed i
  let starve := decide (s.arbN a ≤ x.since + 1)
  let win := arbPick x starve (arbRank a) (fun i => s.arbPrio a i.req) able
  let x := rs.foldl (fun x i => if win == some i then x else x.wait i.req (able.contains i)) x
  let poor := ((rs.filter fun i => !able.contains i).filterMap (·.part)).eraseDups
  let s := poor.foldl (fun s p => s.partCount p.val 4 1) s
  match win with
  | none => (none, { s with arbs := SMap.set {} s.arbs a x })
  | some i =>
    let x := { x.note i.req with last := i.req }
    if i.withdrawn then (some i, { s with arbs := SMap.set {} s.arbs a x })
    else
      let s := (match i.txn.bind s.txn?, bucketOf a i with
        | some q, some b => if q.part == i.part.map (fun (p : PartId) => p.val) && q.bucket == some b && q.stage == Stage.atHome then s.payPacket q b else s
        | _, _ => s)
      let q := x.req i.req
      let q : ArbReq := { q with grants := add64 q.grants 1 }
      let x : Arb := { x with since := if starve then 0 else x.since + 1, reqs := SMap.set {} x.reqs i.req q }
      (some i, { s with arbs := SMap.set {} s.arbs a x })

/-- One beat of an arbiter. -/
def State.arbBeat (s : State) (a : Nat) (rs : List ArbIn) : State := (s.arbDecide a rs).2

/-- ARBITER_GRANT, of the requesters that the arbiter has. -/
def execArbiterGrant (a : Nat) (reqs : List ArbIn) (s : State) : Host.Outcome State Fault Refusal :=
  let rs := reqs.filter fun i => arbHas a i.req
  s.inner (if s.isReady && !rs.isEmpty then s.arbBeat a rs else s)

/-! ## BUCKET_REFILL (07 R238, R240, 10 R341, 12 R413) -/

/-- RATE in MB/s and BURST in KiB of a bucket. -/
def State.rateOf (s : State) (p idx : Nat) : Nat × Nat :=
  let sub := if idx < 8 then 2 else if idx < 16 then 4 else if idx < 18 then 6 else if idx < 20 then 9 else 0xC
  (s.regv p sub, s.regv p (sub + 1))

/-- The settings of a partition's regulators take effect (07 R240). -/
def State.latchRegs (s : State) (p : Nat) : State :=
  { s with regNow := (List.range 13).foldl (fun m i => odStore m (0x5200 + p) (i + 1) (s.odv (0x5200 + p) (i + 1))) s.regNow }

/-- RATE × 0.04 bytes are added to a bucket, up to BURST. -/
def State.refillOne (s : State) (p idx : Nat) : State :=
  let r := s.rateOf p idx
  { s with buckets := SMap.mod bucketStart s.buckets (64 * p + idx) fun v => min (v + (r.1 : Int)) (25600 * (r.2 : Int)) }

/-- One refill of a partition: the settings in the dictionary, then its 24 buckets. -/
def State.refill (s : State) (p : Nat) : State := (List.range 24).foldl (fun s i => s.refillOne p i) (s.latchRegs p)

def execBucketRefill (p : PartId) (s : State) : Host.Outcome State Fault Refusal :=
  s.inner (if s.isReady then s.refill p.val else s)

/-! ## Launches (03 R79 to R83) -/

/-- Words of a stream from an address: the launcher reads the first 24, with a mark for words that cannot be corrected. -/
def State.streamWords (s : State) (part : Option Nat) (a n : Nat) : List (Nat × Bool) × State :=
  (List.range (cdiv n 8)).foldl (fun (acc : List (Nat × Bool) × State) g =>
    let r := acc.2.readFor part (a + 64 * g) 64
    (acc.1 ++ ((List.range 8).filter fun i => decide (8 * g + i < n)).map (fun i => (fieldAt r.1.bytes (8 * i) 8, r.1.poison)), r.2)) ([], s)

/-- A launcher sends a kernel: one packet to each hedge that its masks name (03 R79, R83). An empty kernel sends none. -/
def State.launch (s : State) (who : Launcher) (part : Option Nat) (kid addr words : Nat) (masks : List Nat) : State :=
  let id := s.nextId
  let addr := addr / 64 * 64
  let empty := words == 0 || masks.all (· == 0)
  let tiles := if empty then [] else
    (List.range 8).flatMap fun h => ((List.range 16).filter fun i => (masks.getD h 0).testBit i).map (tileOf h)
  let l : Launch := { id := id, by_ := who, part := part, kernelId := kid, streamAddr := addr, words := words, masks := masks, open_ := tiles }
  let r := if empty then ([], s)
    else s.forWho (match who with | .hostOp op => op + 1 | .laurel => 0) fun s => s.streamWords part addr (min words 24)
  let pk := if empty then [] else
    (([0, 1, 2, 3, 4, 5, 6, 7] : List HedgeId).filter fun h => masks.getD h.val 0 != 0).map fun h =>
      (⟨id, h, masks.getD h.val 0, kid, addr + 192, words, r.1⟩ : LaunchPkt)
  { r.2 with nextId := id + 1, launches := r.2.launches ++ [l], launchPkts := r.2.launchPkts ++ pk }

/-- Ask for the words of a stream that come within 4 packets of its broadcast (03 R79). -/
def State.streamAsk (s : State) (h : HedgeId) : Nat → Stream → Stream × State
  | 0, x => (x, s)
  | fuel + 1, x =>
    if x.asked < x.words && decide (x.asked + 8 ≤ max x.next 24 + 128) then
      let s := s.ask { id := 0, agent := .hedge h, kind := .read, dest := ⟨none, x.addr + 8 * (x.asked - 24)⟩, len := 64, purpose := .stream h x.launch x.asked
                       part := (s.launches.find? (·.id == x.launch)).bind (·.part) }
      s.streamAsk h fuel { x with asked := x.asked + 8, fetching := x.fetching ++ [x.asked] }
    else (x, s)

/-- The sequencer's streams ask for what they may. -/
def State.hedgeAsk (s : State) (h : HedgeId) : State :=
  let r := (s.hedge h.val).streams.foldl (fun (acc : List Stream × State) x =>
    let y := acc.2.streamAsk h 16 x
    (acc.1 ++ [y.1], y.2)) ([], s)
  r.2.setHedge h.val { r.2.hedge h.val with streams := r.1 }

/-- A launch packet becomes a stream. -/
def LaunchPkt.stream (p : LaunchPkt) : Stream :=
  { launch := p.launch, mask := p.mask, kernelId := p.kernelId, addr := p.addr, words := p.words
    held := p.carried.zipIdx.map fun x => (x.2, x.1.1, x.1.2), next := 0, fetching := [], asked := 24 }

/-- Waiting packets take the places that are free: four at most (03 R82). -/
def Hedge.takeIn (g : Hedge) : Hedge :=
  let n := 4 - g.streams.length
  { streams := g.streams ++ (g.waiting.take n).map LaunchPkt.stream, waiting := g.waiting.drop n }

/-- Where a launch comes from: Laurel, or a port's queue selector. -/
def State.launchFrom (s : State) (l : Nat) : Option PortId :=
  match (s.launches.find? (·.id == l)).map Launch.by_ with
  | some (Launcher.hostOp op) => (s.op? op).map (·.port)
  | _ => none

/-- LAUNCH_PACKET: a packet reaches its hedge's sequencer; two of one source arrive in order (03 R76). -/
def State.launchPacket (s : State) (l : Nat) (h : HedgeId) : State :=
  let mine (p : LaunchPkt) : Bool := p.launch == l && p.hedge == h
  match s.launchPkts.find? mine with
  | none => s
  | some p =>
    if (s.launchPkts.takeWhile fun x => !mine x).any fun x => x.hedge == h && s.launchFrom x.launch == s.launchFrom l then s
    else
      let s := { s with launchPkts := s.launchPkts.filter fun x => !mine x }
      let g := s.hedge h.val
      (s.setHedge h.val (Hedge.takeIn { g with waiting := g.waiting ++ [p] })).hedgeAsk h

def execLaunchPacket (launch : Nat) (h : HedgeId) (s : State) : Host.Outcome State Fault Refusal :=
  s.inner (if s.isReady then s.launchPacket launch h else s)

/-- A stream ends in all the tiles of a hedge that its mask names, with a fault code; its place frees. -/
def State.endStream (s : State) (h : HedgeId) (x : Stream) (code : Nat) : State :=
  let g := s.hedge h.val
  let s := s.setHedge h.val (Hedge.takeIn { g with streams := g.streams.filter (·.launch != x.launch) })
  let s := { s with txns := s.txns.filter fun q => (match q.purpose with | .stream k l _ => !(k == h && l == x.launch) | _ => true) }
  ((((List.range 16).filter fun i => x.mask.testBit i).map (tileOf h.val)).foldl (fun s t => s.faultIn x.launch code t) s).hedgeAsk h

/-- STREAM_FETCH_RETURN: the grain's words enter the stream buffer. -/
def State.streamReturn (s : State) (id : Nat) (errs : List (Nat × Bool)) : State :=
  match s.txn? id with
  | none => s
  | some q =>
    match q.purpose with
    | .stream h l off =>
      if q.stage != .returned then s
      else
        let s := s.dropTxn id
        (match (s.hedge h.val).streams.find? (·.launch == l) with
         | none => s
         | some x =>
           if q.data.poison || q.status != 0 then s.endStream h x 1
           else
             let s := s.sramCorr (errs.countP (·.2))
             let ws := ((List.range 8).filter fun i => decide (off + i < x.words)).map fun i =>
               (off + i, fieldAt q.data.bytes (8 * i) 8, errs.any fun e => e.1 == i && !e.2)
             let g := s.hedge h.val
             s.setHedge h.val { g with streams := g.streams.map fun y =>
               if y.launch = l then { y with held := y.held ++ ws, fetching := y.fetching.filter (· != off) } else y })
    | _ => s

def execStreamFetchReturn (txn : Nat) (errs : List (Nat × Bool)) (s : State) : Host.Outcome State Fault Refusal :=
  s.inner (if s.isReady then s.streamReturn txn errs else s)

/-- A broadcast word reaches a tile: discarded where the tile has ended the launch; at a halted core the stream ends with its first word (04 R119, R136). -/
def State.wordAt (s : State) (t : Nat) (w : BWord) : State :=
  let x := s.tile t
  if s.endedIn w.launch t then s.setTile t (x.bump cBcastDiscard 1)
  else if w.start && x.core.halted then
    (s.setTile t (x.bump cBcastDiscard 1)).faultIn w.launch 8 t
  else s.setTile t { x with fifo := x.fifo ++ [w] }

/-- BROADCAST_WORD: the next word of the sequencer's first stream goes to every named tile, once all of their FIFOs have room (03 R81). -/
def State.broadcast (s : State) (h : HedgeId) (l : Nat) (bad : List TileId) : State :=
  match (s.hedge h.val).streams with
  | [] => s
  | x :: r =>
    let tiles := ((List.range 16).filter fun i => x.mask.testBit i).map (tileOf h.val)
    if x.launch != l || !(tiles.all fun t => s.endedIn l t || decide ((s.tile t).fifo.length < 32)) then s
    else
      match x.held.find? (·.1 == x.next) with
      | none => s
      | some (_, v, unc) =>
        if unc then (s.sramUncorr (0x98 + h.val) 7 x.next).endStream h x 1
        else
          let parity := tiles.countP fun t => bad.any (·.val == t)
          let s := { s with totals := { s.totals with parity := satAdd 32 s.totals.parity parity } }
          let last := decide (x.words ≤ x.next + 1)
          let s := tiles.foldl (fun s t => s.wordAt t ⟨v, x.next == 0, last, bad.any (·.val == t), x.kernelId, l⟩) s
          let y := { x with next := x.next + 1, held := x.held.filter (·.1 != x.next) }
          let g := s.hedge h.val
          (s.setHedge h.val (Hedge.takeIn { g with streams := if last then r else y :: r })).hedgeAsk h

def execBroadcastWord (h : HedgeId) (launch : Nat) (bad : List TileId) (s : State) : Host.Outcome State Fault Refusal :=
  s.inner (if s.isReady then s.broadcast h launch bad else s)

end Sys2Proof.Machine
end

