-- ==== Sys2Proof/Machine/UnitOps.lean ====
section
/-!
DEFINITION. What a Privet unit does with its memory and its buffer: protected words and access checks (07 R218, 08 R242, R259),
lane arithmetic (05 R164), and the primitives MV, SEGRED, GATHER, MEMBER, COPY and ATTEND (08 R262 to R276).
-/

namespace Sys2Proof.Machine

/-- A byte with its poison. -/
abbrev PByte := Byte × Bool

def pdata (l : List PByte) : List Byte := l.map (·.1)
def ppois (l : List PByte) : Bool := l.any (·.2)
/-- Bytes all poisoned, or all sound. -/
def pmark (p : Bool) (l : List Byte) : List PByte := l.map fun b => (b, p)

/-- A unit at work within one step: its stack's tier, itself, and what its command has met. `stop` is the status that ended it early. -/
structure UWork extends UAcc where
  u : Nat
  t : TWork
  x : PUnit
  stop : Nat := 0
  /-- Grains of its memory that it has accessed, by unit-linear number, the last first; how many they are. -/
  trace : List Nat := []
  count : Nat := 0
  /-- Accesses made in earlier steps; accesses that it may have made by the end of this one (none: as many as it likes). -/
  made : Nat := 0
  room : Option Nat := none
  /-- What the reads and writes of earlier steps gave, those still to be gone through again first; and what all so far gave, the last first. -/
  past : List (List PByte) := []
  log : List (List PByte) := []
  /-- Draws of free values (log 3). -/
  free : Nat := 0
  deriving DecidableEq, Repr

/-- Stack offset of a unit-linear address (08 R242). -/
def unitOff (p u : Nat) : Nat := (u / 32768) * 0x200000 + (u % 32768) / 2048 * 0x20000 + p * 0x800 + u % 2048

/-- May a unit access a page (07 R218)? -/
def Tier.unitMay (t : Tier) (page : Nat) : Bool :=
  match t.entryOf page with
  | some (_, r) => !r.isSealed && !r.converting && t.page page == 0
  | none => false

/-- An access is refused: the command ends with SEALED_REFUSED (08 R259). -/
def UWork.refuse (w : UWork) : UWork := { w with stop := 1, x := w.x.bump 0xC8 1, t := w.t.count 5 1 }

/-- No status: the command has reached an access that it may not make yet. -/
def unitWaits : Nat := 9

/-- An access to grain `g`: one made in an earlier step stays made; a new one is checked before it is performed (07 R218, 08 R259). -/
def UWork.touch (w : UWork) (g : Nat) : UWork :=
  if w.stop != 0 then w
  else if w.made ≤ w.count && w.room == some w.count then { w with stop := unitWaits }
  else if w.made ≤ w.count && !w.t.t.unitMay (g / 512) then w.refuse
  else { w with trace := g :: w.trace, count := w.count + 1 }

/-- A read or write of core dies or buffer: one made in an earlier step gives what it gave then and does nothing more; a new one is performed and noted. -/
def UWork.once (w : UWork) (f : UWork → List PByte × UWork) : List PByte × UWork :=
  if w.stop = unitWaits then ((f w).1, w)
  else
    match w.past with
    | d :: l => (d, { w with past := l, log := d :: w.log })
    | [] => let r := f w; (r.1, { r.2 with log := r.1 :: r.2.log })

/-- Protected word `n` of a unit's memory, in a grain that is being accessed, is read. -/
def UWork.word (w : UWork) (n : Nat) : List PByte × UWork :=
  if w.stop != 0 then (pmark true (noData 32), w)
  else
    let o := unitOff (w.u % 64) (32 * n) / 32
    let r := w.once fun w => let f := w.t.find .open o; (pmark f.bad f.data, { w with t := w.t.report o f })
    (r.1, { r.2 with used := true, pois := r.2.pois || ppois r.1 })

/-- Protected words `n` and on; `new` where the first is in a grain not accessed just before. -/
def UWork.words : UWork → Nat → Nat → Bool → List PByte × UWork
  | w, _, 0, _ => ([], w)
  | w, n, k + 1, new =>
    let r := (if new || n % 2 == 0 then w.touch (n / 2) else w).word n
    let q := UWork.words r.2 (n + 1) k false
    (r.1 ++ q.1, q.2)

/-- Bytes of the unit's memory from unit-linear byte `a`. -/
def UWork.core (w : UWork) (a n : Nat) (new : Bool := true) : List PByte × UWork :=
  if n = 0 then ([], w)
  else
    let r := w.words (a / 32) ((a + n - 1) / 32 + 1 - a / 32) new
    ((r.1.drop (a % 32)).take n, r.2)

/-- Bytes of a grain of the unit's memory from unit-linear byte `a` are written, with Open metadata (07 R216, 08 R259); poison among them makes two poison words
(07 R215). The grain's release tag goes (09 R304). -/
def UWork.putGrain (w : UWork) (a : Nat) (d : List PByte) : UWork :=
  let w := w.touch (a / 64)
  if w.stop != 0 then w
  else
    (w.once fun w =>
      let o := unitOff (w.u % 64) a
      let t := { w.t with t := { w.t.t with tags := w.t.t.tags.filter (·.1 != o / 64) } }
      let t := if ppois d then { t with t := (t.t.put o (pdata d)).poisonGrain t.k (o / 64) }
        else
          (List.range ((o + d.length - 1) / 32 + 1 - o / 32)).foldl (fun (t : TWork) i =>
            let s := spanInWord o (pdata d) (o / 32 + i)
            (t.writeWord .open (o / 32 + i) s.1 s.2.1 s.2.2 false).1) t
      ([], { w with t := t })).2

/-- Bytes are written to the unit's memory from unit-linear byte `a`, grain by grain. -/
def UWork.putCore (w : UWork) (a : Nat) (d : List PByte) : UWork :=
  (spanCuts a d.length).foldl (fun w c => w.putGrain (a + c.1) ((d.drop c.1).take c.2)) w

/-- Bytes of the buffer as the unit reads them (08 R254, 15 R478). -/
def UWork.buf (w : UWork) (a n : Nat) : List PByte × UWork :=
  if n = 0 then ([], w)
  else
    let r := w.once fun w =>
      let code (i : Nat) : Nat := SMap.get 0 w.x.bufWords i
      let ws := (List.range ((a + n - 1) / 8 + 1 - a / 8)).map (a / 8 + ·)
      let unc := ws.filter fun i => code i == 3
      let x := (w.x.bump 0xE8 (ws.countP fun i => code i == 2)).bump 0xEC unc.length
      let bad (i : Nat) : Bool := code i == 1 || code i == 3
      let evs := unc.map fun i => sramUncorr (0x80 + w.u / 64) 5 (65536 * w.u + 8 * i)
      ((List.range n).map fun i => (SMap.get 0#8 w.x.buffer (a + i), bad ((a + i) / 8)), { w with x := x, t := { w.t with evs := w.t.evs ++ evs } })
    (r.1, { r.2 with pois := r.2.pois || (w.stop != unitWaits && ppois r.1) })

/-- Bytes are written to the buffer, one poison for each 64-bit word. -/
def UWork.putBuf (w : UWork) (a : Nat) (d : List PByte) : UWork :=
  (w.once fun w =>
    let x := (chunksOf 8 (d.length / 8 + 1) d).zipIdx.foldl (fun x c => x.bufWrite (a + 8 * c.2) ⟨pdata c.1, ppois c.1⟩) w.x
    let evs := (w.x.partUncorr a d.length).map fun i => sramUncorr (0x80 + w.u / 64) 5 (65536 * w.u + 8 * i)
    ([], { w with x := x, t := { w.t with evs := w.t.evs ++ evs } })).2

/-- Add to a counter of saturations, where the result is not poisoned (15 R474). -/
def UWork.sat (w : UWork) (p : Bool) (n : Nat) : UWork := if p then w else { w with sats := satAdd 32 w.sats n }

/-! ## Lanes -/

/-- One addition to a lane's accumulator, rounded once: accumulator, overflows. -/
def laneAdd (acc : Nat × Nat) (x : Num) : Nat × Nat :=
  let r := fp32.roundIeee false (x.add (ofF32 acc.1))
  (r.1, acc.2 + b2n r.2)

/-- A lane's terms in order. -/
def laneFold (a : Nat) (l : List Num) : Nat × Nat := l.foldl laneAdd (a, 0)

/-- Terms over the 128 lanes, term i in lane i mod 128 (log 24), then the tree of R160: sum, overflows. -/
def laneSum (l : List Num) : Nat × Nat :=
  let rows := chunksOf 128 (l.length / 128 + 1) l
  let accs := rows.foldl (fun accs r =>
    (List.range 128).map fun i =>
      match r[i]? with
      | some x => laneAdd (accs.getD i (0, 0)) x
      | none => accs.getD i (0, 0)) (List.replicate 128 (0, 0))
  (treeSum 7 (accs.map (·.1)), (accs.map (·.2)).sum)

/-- Elements of a format with their poison: element i's code and the scale byte of its block. -/
def elemsOf (fmt zp : Nat) (texp : Int) (d s : List PByte) (n : Nat) : List (Num × Bool) :=
  let db := pdata d
  (List.range n).map fun i =>
    let at_ := i * elemBits fmt / 8
    let sc := s[i / 32]?
    (widen fmt zp texp (if isMx fmt then sc.map (·.1) else none) (elemCode fmt db i),
     (d.getD at_ (0#8, false)).2 || (d.getD (at_ + (elemBits fmt + 7) / 8 - 1) (0#8, false)).2 ||
       (isMx fmt && (match sc with | some y => y.2 | none => false)))

/-- BF16 values of buffer bytes. -/
def bfOf (d : List PByte) (n : Nat) : List (Num × Bool) :=
  let db := pdata d
  (List.range n).map fun i => (bf16.decode (fieldAt db (2 * i) 2), (d.getD (2 * i) (0#8, false)).2 || (d.getD (2 * i + 1) (0#8, false)).2)

/-- Fill to whole grains with zeros. -/
def toGrains (l : List PByte) : List PByte := l ++ pmark false (zeros (64 * cdiv l.length 64 - l.length))

/-- Results in FP32 or BF16 (05 R151, R152), packed and filled to whole grains. -/
def UWork.pack (w : UWork) (bf rz : Bool) (vals : List (Nat × Bool)) : List PByte × UWork :=
  if bf then
    let ns := vals.map fun v => (narrowTo 1 rz 0 (ofF32 v.1), v.2)
    (toGrains (ns.flatMap fun r => pmark r.2 (leBytes 2 r.1.1)), w.sat false (ns.countP fun r => r.1.2.1 && !r.2))
  else (toGrains (vals.flatMap fun v => pmark v.2 (leBytes 4 v.1)), w)

/-! ## Parameters (08 R252, R263, R264) -/

/-- Word `i` of a primitive's parameters. -/
def prm (p : List Nat) (i lo n : Nat) : Nat := bits (p.getD i 0) lo n

/-- Formats of MV and of ATTEND's keys and values (08 R263). -/
def mvFmt (f : Nat) : Bool := decide (3 ≤ f) && decide (f ≤ 9)

/-- Size fields of a primitive with their largest values; a zero in one makes the primitive empty. -/
def primSizes (prim : Nat) (p : List Nat) : List (Nat × Nat) :=
  match prim with
  | 1 => [(prm p 1 0 13, 4096), (prm p 1 13 16, 32768)]
  | 2 => [(prm p 0 11 5, 16), (prm p 0 16 4, 8), (prm p 0 20 4, 8), (prm p 1 11 9, 256), (prm p 2 11 11, 2047)]
  | 3 => [(prm p 0 37 16, 32768), (prm p 1 0 9, 256), (prm p 1 22 13, 4096)]
  | 4 => [(prm p 0 25 17, 65536), (prm p 0 42 9, 256), (prm p 1 11 13, 4096)]
  | 5 => [(prm p 0 25 5, 27), (prm p 1 11 13, 4096), (prm p 1 24 7, 64)]
  | 6 => [(prm p 0 37 12, 2048)]
  | _ => []

def primEmpty (prim : Nat) (p : List Nat) : Bool := (primSizes prim p).any (·.1 == 0)

/-- The size fields that the length of a primitive's result does not depend on, by their places in `primSizes`. -/
def primFree (prim : Nat) : List Nat :=
  match prim with
  | 1 => [1]
  | 2 => [3, 4]
  | 3 => [0]
  | 4 => [0]
  | 5 => [0, 2]
  | 6 => [0]
  | _ => []

/-- Is a size out of range on which the result's length depends, so that the length is unknown (08 R251; log 112)? -/
def primOver (prim : Nat) (p : List Nat) : Bool :=
  ((primSizes prim p).zipIdx.any fun x => decide (x.1.2 < x.1.1) && !(primFree prim).contains x.2) ||
  (prim == 2 && decide (16 < prm p 0 11 5 * prm p 0 16 4)) || (prim == 3 && fmtReserved (prm p 0 25 4))

/-- Is another parameter out of range? -/
def primBad (prim : Nat) (p : List Nat) : Bool :=
  ((primSizes prim p).any fun x => decide (x.2 < x.1)) ||
  (match prim with
   | 1 => !mvFmt (prm p 0 25 4) || prm p 0 29 8 == 128
   | 2 => !mvFmt (prm p 0 24 4)
   | 3 => !(mvFmt (prm p 0 25 4) || prm p 0 25 4 == 0 || prm p 0 25 4 == 1) || prm p 0 29 8 == 128 || prm p 1 20 2 == 3
   | _ => false)

/-- Result grains of a primitive (08 R265 to R269, R275). -/
def primGrains (prim : Nat) (bf : Bool) (p : List Nat) : Nat :=
  let ob := if bf then 2 else 4
  match prim with
  | 1 => cdiv (prm p 1 0 13 * ob) 64
  | 2 =>
    let h := prm p 0 11 5 * prm p 0 16 4
    h * cdiv (prm p 0 20 4 * 32 * ob) 64 + cdiv (8 * h) 64
  | 3 => cdiv (prm p 1 22 13 * prm p 1 0 9 * vecElems (prm p 0 25 4) * ob) 64
  | 4 => cdiv (prm p 1 11 13 * prm p 0 42 9 * 32) 64
  | 5 => if prm p 0 30 1 = 1 then cdiv (4 * prm p 1 11 13) 64 else cdiv (prm p 1 11 13) 512
  | _ => 0

/-- Ends of the ranges that the parameters name: in the unit's memory, in the buffer. -/
def primEnds (prim : Nat) (p : List Nat) : Nat × Nat :=
  match prim with
  | 1 =>
    let f := prm p 0 25 4
    let nv := cdiv (prm p 1 13 16) (vecElems f)
    let w := 32 * prm p 0 0 25 + prm p 1 0 13 * nv * vecBytes f
    (if isMx f then max w (32 * prm p 2 0 25 + prm p 1 0 13 * cdiv (prm p 1 13 16) 32) else w,
     32 * prm p 2 25 11 + 2 * nv * vecElems f)
  | 2 =>
    let h := prm p 0 11 5 * prm p 0 16 4
    (0, max (32 * prm p 0 0 11 + h * prm p 0 20 4 * 64)
      (max (32 * prm p 1 0 11 + 16 * prm p 1 11 9) (32 * prm p 2 0 11 + 32 * prm p 2 11 11)))
  | 3 =>
    let f := prm p 0 25 4
    let rows := prm p 0 37 16
    let w := prm p 1 0 9
    (32 * prm p 0 0 25 + rows * w * (vecBytes f + vecScales f), 32 * prm p 1 9 11 + 2 * rows)
  | 4 => (32 * prm p 0 0 25 + 32 * prm p 0 25 17 * prm p 0 42 9, 32 * prm p 1 0 11 + 4 * prm p 1 11 13)
  | 5 => (32 * prm p 0 0 25 + 8 * 2 ^ prm p 0 25 5, 32 * prm p 1 0 11 + 8 * prm p 1 11 13)
  | 6 => (32 * prm p 0 0 25 + 32 * prm p 0 37 12, 32 * prm p 0 26 11 + 32 * prm p 0 37 12)
  | _ => (0, 0)

/-- Does a primitive name a range past the unit's 1 GiB or past the buffer? -/
def primRuns (prim : Nat) (p : List Nat) : Bool :=
  decide (2 ^ 30 < (primEnds prim p).1) || decide (65536 < (primEnds prim p).2)

/-! ## The primitives -/

/-- MV: y = W x, whole channel vectors (06 R178), each row over the lanes (08 R265). -/
def UWork.mv (w : UWork) (bf rz : Bool) (p : List Nat) : List PByte × UWork :=
  let f := prm p 0 25 4
  let texp := sext 8 (prm p 0 29 8)
  let c := prm p 1 13 16
  let nv := cdiv c (vecElems f)
  let n := nv * vecElems f
  let rb := nv * vecBytes f
  let ns := if isMx f then cdiv c 32 else 0
  let xr := w.buf (32 * prm p 2 25 11) (2 * n)
  let x := bfOf xr.1 n
  let r := (List.range (prm p 1 0 13)).foldl (fun (acc : List (Nat × Bool) × UWork) i =>
    let d := acc.2.core (32 * prm p 0 0 25 + i * rb) rb
    let s := d.2.core (32 * prm p 2 0 25 + i * ns) ns
    let es := elemsOf f (prm p 0 37 8) texp d.1 s.1 n
    let bad := es.any (·.2) || x.any (·.2)
    let y := laneSum ((es.zip x).map fun z => z.1.1.mul z.2.1)
    (acc.1 ++ [(y.1, bad)], s.2.sat bad y.2)) ([], xr.2)
  r.2.pack bf rz r.1

/-- One fold of SEGRED's operation: value, overflow. -/
def segFold (op acc : Nat) (v : Num) : Nat × Nat :=
  match op with
  | 0 => laneAdd (acc, 0) v
  | 1 => let r := fp32.roundIeee false ((ofF32 acc).max v); (r.1, b2n r.2)
  | _ => let r := fp32.roundIeee false ((ofF32 acc).min v); (r.1, b2n r.2)

/-- SEGRED: rows folded into segments in row order (08 R266). -/
def UWork.segred (w : UWork) (bf rz : Bool) (p : List Nat) : List PByte × UWork :=
  let f := prm p 0 25 4
  let texp := if f ≤ 2 then 0 else sext 8 (prm p 0 29 8)
  let rows := prm p 0 37 16
  let wv := prm p 1 0 9
  let segs := prm p 1 22 13
  let op := prm p 1 20 2
  let n := wv * vecElems f
  let rb := wv * vecBytes f
  let sb := wv * vecScales f
  let start := if op = 0 then 0 else if op = 1 then 0xFF800000 else 0x7F800000
  let sr := w.buf (32 * prm p 1 9 11) (2 * rows)
  let r := (List.range rows).foldl (fun (acc : SMap (List (Nat × Bool)) × UWork) j =>
    let sg := fieldAt (pdata sr.1) (2 * j) 2
    let sp := (sr.1.getD (2 * j) (0#8, false)).2
    let hi := decide (segs ≤ sg)
    let seg := if hi then segs - 1 else sg
    let d := acc.2.core (32 * prm p 0 0 25 + j * rb) rb
    let s := d.2.core (32 * prm p 0 0 25 + rows * rb + j * sb) sb
    let es := elemsOf f 0 texp d.1 s.1 n
    let old := SMap.get (List.replicate n (start, false)) acc.1 seg
    let new := (old.zip es).map fun z =>
      let q := segFold op z.1.1 z.2.1
      ((q.1, z.1.2 || z.2.2 || sp), q.2)
    let tooHigh := (new.map fun z => if z.1.2 then 0 else z.2).sum
    (SMap.set [] acc.1 seg (new.map (·.1)), { (s.2.sat false tooHigh) with high := s.2.high + b2n (hi && s.2.stop == 0) })) ([], sr.2)
  r.2.pack bf rz ((List.range segs).flatMap fun g => SMap.get (List.replicate n (start, false)) r.1 g)

/-- GATHER: rows of a table in index order (08 R267, R262). -/
def UWork.gather (w : UWork) (p : List Nat) : List PByte × UWork :=
  let rl := 32 * prm p 0 42 9
  let n := prm p 1 11 13
  let ir := w.buf (32 * prm p 1 0 11) (4 * n)
  let r := (List.range n).foldl (fun (acc : List PByte × UWork) i =>
    if ppois ((ir.1.drop (4 * i)).take 4) then (acc.1 ++ pmark true (noData rl), acc.2)
    else
      let c := clampIdx (sext 32 (fieldAt (pdata ir.1) (4 * i) 4)) (prm p 0 25 17)
      let d := acc.2.core (32 * prm p 0 0 25 + c.1 * rl) rl
      let used := acc.2.stop == 0 && d.2.stop != unitWaits
      (acc.1 ++ d.1, { d.2 with low := d.2.low + b2n (c.2.1 && used), high := d.2.high + b2n (c.2.2 && used) })) ([], ir.2)
  (toGrains r.1, r.2)

/-- Probes of one query of MEMBER: the slot where it was found, poisoned, the limit was met (08 R268). -/
def UWork.probe (base b q : Nat) : Nat → Nat → Nat → UWork → (Option Nat × Bool × Bool) × UWork
  | 0, _, _, w => ((none, false, true), w)
  | fuel + 1, slot, last, w =>
    let a := base + 8 * slot
    let r := w.core a 8 (a / 64 + 1 != last)
    let w := r.2
    if w.stop != 0 then ((none, true, false), w)
    else if ppois r.1 then ((none, true, false), w)
    else
      let v := leNat (pdata r.1)
      if v = q ∧ q ≠ 2 ^ 64 - 1 then ((some slot, false, false), w)
      else if v = 2 ^ 64 - 1 then ((none, false, false), w)
      else UWork.probe base b q fuel ((slot + 1) % 2 ^ b) (a / 64 + 1) w

/-- MEMBER: lookups in an open-addressed table. -/
def UWork.member (w : UWork) (p : List Nat) : List PByte × UWork :=
  let b := prm p 0 25 5
  let n := prm p 1 11 13
  let kr := w.buf (32 * prm p 1 0 11) (8 * n)
  let r := (List.range n).foldl (fun (acc : List (Option Nat × Bool) × UWork) j =>
    let kb := (kr.1.drop (8 * j)).take 8
    if ppois kb then (acc.1 ++ [(none, true)], acc.2)
    else
      let q := leNat (pdata kb)
      let slot := (q * 0x9E3779B97F4A7C15) % 2 ^ 64 / 2 ^ (64 - b)
      let x := UWork.probe (32 * prm p 0 0 25) b q (prm p 1 24 7) slot 0 acc.2
      (acc.1 ++ [(x.1.1, x.1.2.1)], { x.2 with probeLimit := x.2.probeLimit || x.1.2.2 })) ([], kr.2)
  if prm p 0 30 1 = 1 then
    (toGrains (r.1.flatMap fun y => pmark y.2 (leBytes 4 (match y.1 with | some s => s | none => 2 ^ 32 - 1))), r.2)
  else
    (toGrains ((chunksOf 8 (n / 8 + 1) r.1).map fun l =>
      (BitVec.ofNat 8 ((l.zipIdx.map fun y => if y.1.1.isSome then 2 ^ y.2 else 0).sum), l.any (·.2))), r.2)

/-- COPY: no result (08 R269). -/
def UWork.copy (w : UWork) (p : List Nat) : UWork :=
  let n := 32 * prm p 0 37 12
  let a := 32 * prm p 0 0 25
  let o := 32 * prm p 0 26 11
  if prm p 0 25 1 = 0 then
    let r := w.core a n
    if r.2.stop != 0 then r.2 else r.2.putBuf o r.1
  else
    let r := w.buf o n
    r.2.putCore a r.1

/-! ## ATTEND (08 R270 to R276) -/

/-- A run of the run list. -/
structure Run where
  kAddr : Nat
  vAddr : Nat
  count : Nat
  kFmt : Nat
  vFmt : Nat
  kExp : Nat
  vExp : Nat
  segment : Nat
  first : Nat
  deriving DecidableEq, Repr

/-- Entry `i` of a run list's bytes. -/
def runAt (l : List Byte) (i : Nat) : Run :=
  let a := fieldAt l (16 * i) 8
  let b := fieldAt l (16 * i + 8) 8
  ⟨bits a 0 25, bits a 25 25, bits a 50 7, bits a 57 4, bits b 0 4, bits b 4 8, bits b 12 8, bits b 20 16, bits b 36 28⟩

/-- Bytes of `count` vectors of `dh` × 32 elements. -/
def vecsBytes (fmt dh count : Nat) : Nat := count * (dh * 32 * elemBits fmt / 8)

/-- End of a run's keys or values with their scale bytes. -/
def runEnd (addr fmt dh count : Nat) : Nat :=
  let e := 32 * addr + vecsBytes fmt dh count
  if isMx fmt then cdiv e 32 * 32 + count * dh else e

/-- A run's vectors, widened: elements and poison of each token. -/
def UWork.loadRun (w : UWork) (addr fmt exp dh count : Nat) : List (List Num × Bool) × UWork :=
  let kb := dh * 32 * elemBits fmt / 8
  let d := w.core (32 * addr) (vecsBytes fmt dh count)
  let s := d.2.core (cdiv (32 * addr + vecsBytes fmt dh count) 32 * 32) (if isMx fmt then count * dh else 0)
  ((List.range count).map fun i =>
    let es := elemsOf fmt 0 (sext 8 exp) ((d.1.drop (i * kb)).take kb) ((s.1.drop (i * dh)).take dh) (dh * 32)
    (es.map (·.1), es.any (·.2)), s.2)

/-- Vectors of several runs in run order, with each token's position. -/
def UWork.loadRuns (w : UWork) (dh : Nat) (keys : Bool) (rs : List Run) : List (List Num × Bool × Nat) × UWork :=
  rs.foldl (fun acc r =>
    let d := if keys then acc.2.loadRun r.kAddr r.kFmt r.kExp dh r.count else acc.2.loadRun r.vAddr r.vFmt r.vExp dh r.count
    (acc.1 ++ d.1.zipIdx.map (fun t => (t.1.1, t.1.2, r.first + t.2)), d.2)) ([], w)

/-- A score: FP32 code, poison, visible. -/
structure Score where
  code : Nat
  bad : Bool
  vis : Bool
  tooHigh : Nat
  deriving DecidableEq, Repr

/-- The score of a query row for a token (08 R272, R273). -/
def scoreOf (scale : Nat) (q : List (Num × Bool)) (qpos : Nat) (t : List Num × Bool × Nat) : Score :=
  if qpos < t.2.2 then ⟨0xFF800000, false, false, 0⟩
  else
    let d := laneSum ((q.zip t.1).map fun z => z.1.1.mul z.2)
    ⟨toF32 ((ofF32 scale).mul (ofF32 d.1)), q.any (·.2) || t.2.1, true, d.2⟩

/-- A row once it has been normalised: poisoned, with a visible key, (m, l), probabilities as BF16 codes, overflows. -/
structure NormRow where
  bad : Bool
  seen : Bool
  m : Nat
  l : Nat
  probs : List Nat
  tooHigh : Nat
  deriving DecidableEq, Repr

/-- The normalised row (08 R274), from its scores as the three passes over them read them: for the maximum, for the sum and for the probabilities. -/
def normRow (rz : Bool) (l l2 l3 : List Score) : NormRow :=
  let bad := (l ++ l2 ++ l3).any (·.bad)
  if l.all fun x => !x.vis then ⟨bad, false, 0xFF800000, 0, l.map fun _ => 0, 0⟩
  else
    let m := (reduce true false (l.map (·.code))).1
    let es (l : List Score) : List Nat := l.map fun x => f32Exp (BitVec.ofNat 32 (toF32 ((ofF32 x.code).add (ofF32 m).negate)))
    let s := laneSum ((es l2).map ofF32)
    let inv := f32Rcp (BitVec.ofNat 32 s.1)
    ⟨bad, true, m, s.1, (es l3).map (fun e => (narrowTo 1 rz 0 (ofF32 (toF32 ((ofF32 e).mul (ofF32 inv))))).1), s.2⟩

/-- A command of ATTEND cannot go on. -/
def UWork.endWith (w : UWork) (c : Nat) : List PByte × UWork := ([], { w with stop := c })

/-- Scores or probabilities go to the score area or are spilled (08 R276). -/
def UWork.putScores (w : UWork) (spill : Bool) (sp so : Nat) (d : List PByte) : UWork :=
  if spill then w.putCore sp d else w.putBuf so d

/-- After a spill, one that was refused too, the score area holds nothing specified. -/
def UWork.looseScores (w : UWork) (so len : Nat) : UWork :=
  let d := (List.range (4 * len)).flatMap fun i => leBytes 8 (Config.freeWord (w.free + i)).toNat
  { (w.putBuf so (pmark false d)) with free := w.free + 4 * len }

/-- The value sum of one row: FP32 codes, overflows (08 R275). -/
def valueSum (n : Nat) (ps : List Nat) (vs : List (List Num × Bool × Nat)) : List Nat × Nat :=
  let r := (List.range n).map fun e =>
    laneFold 0 ((ps.zip vs).map fun z => (bf16.decode z.1).mul (z.2.1.getD e .nan))
  (r.map (·.1), (r.map (·.2)).sum)

/-- The sums and the result, once the probabilities stand. -/
def UWork.attendOut (w : UWork) (bf rz : Bool) (g dh qpos : Nat) (rows : List NormRow) (vs : List (List Num × Bool × Nat)) : List PByte × UWork :=
  let r := rows.zipIdx.foldl (fun (acc : List PByte × UWork) x =>
    let y := if x.1.seen then valueSum (dh * 32) x.1.probs vs else (List.replicate (dh * 32) 0, 0)
    let bad := x.1.bad || (x.1.seen && vs.any fun v => v.2.1 && decide (v.2.2 ≤ qpos + x.2 / g))
    let q := (acc.2.sat bad y.2).pack bf rz (y.1.map fun c => (c, bad))
    (acc.1 ++ q.1, q.2)) ([], w)
  let ml := rows.flatMap fun x => pmark x.bad (leBytes 4 x.m ++ leBytes 4 x.l)
  (r.1 ++ toGrains ml, r.2)

/-- A row's saturations and whether it saw a visible key (08 R249, R274). -/
def UWork.rowSeen (w : UWork) (scores : List Score) (x : NormRow) : UWork :=
  let w := (scores.foldl (fun (w : UWork) c => w.sat c.bad c.tooHigh) w).sat x.bad x.tooHigh
  { w with attEmpty := w.attEmpty || !x.seen }

/-- Spilled scores as a pass reads them back: row h's score of token t is score t × rows + h (08 R273, R276). -/
def UWork.scoresBack (w : UWork) (sp : Nat) (scores : List (List Score)) (ntok : Nat) : List (List Score) × UWork :=
  let n := scores.length
  let d := w.core sp (4 * ntok * n)
  (scores.zipIdx.map fun r => r.1.zipIdx.map fun x =>
    let b := (d.1.drop (4 * (x.2 * n + r.2))).take 4
    { x.1 with code := leNat (pdata b), bad := x.1.bad || ppois b }, d.2)

/-- Spilled probabilities as the value sum reads them back. -/
def UWork.probsBack (w : UWork) (sp : Nat) (rows : List NormRow) (ntok : Nat) : List NormRow × UWork :=
  let n := rows.length
  let d := w.core sp (2 * ntok * n)
  (rows.zipIdx.map fun r =>
    let bs := (List.range ntok).map fun t => (d.1.drop (2 * (t * n + r.2))).take 2
    { r.1 with probs := bs.map fun b => leNat (pdata b), bad := r.1.bad || bs.any ppois }, d.2)

/-- Three passes over the scores normalise the rows. -/
def UWork.normRows (w : UWork) (rz spill : Bool) (sp : Nat) (scores : List (List Score)) (ntok : Nat) : List NormRow × UWork :=
  if !spill then (scores.map fun r => normRow rz r r r, w)
  else
    let a := w.scoresBack sp scores ntok
    let b := a.2.scoresBack sp scores ntok
    let c := b.2.scoresBack sp scores ntok
    (((a.1.zip b.1).zip c.1).map fun r => normRow rz r.1.1 r.1.2 r.2, c.2)

/-- ATTEND from the scores on: scores, normalisation, probabilities, values. A refused access ends it (08 R259). -/
def UWork.attendNorm (w : UWork) (bf rz : Bool) (p : List Nat) (rs : List Run) (spill : Bool) (scores : List (List Score)) (ntok : Nat) :
    List PByte × UWork :=
  let so := 32 * prm p 2 0 11
  let sp := 32 * prm p 2 23 25
  let loose (w : UWork) : UWork := if spill then w.looseScores so (prm p 2 11 11) else w
  let w := w.putScores spill sp so ((List.range ntok).flatMap fun t => scores.flatMap fun r =>
    let x := r.getD t ⟨0, false, false, 0⟩
    pmark x.bad (leBytes 4 x.code))
  let n := w.normRows rz spill sp scores ntok
  let w := n.2
  if w.stop != 0 then ([], loose w)
  else
    let w := (scores.zip n.1).foldl (fun (w : UWork) x => w.rowSeen x.1 x.2) w
    let w := w.putScores spill sp so ((List.range ntok).flatMap fun t => n.1.flatMap fun x => pmark x.bad (leBytes 2 (x.probs.getD t 0)))
    let b := if spill then w.probsBack sp n.1 ntok else (n.1, w)
    let w := loose b.2
    let vr := w.loadRuns (prm p 0 20 4) false rs
    if vr.2.stop != 0 then ([], vr.2) else vr.2.attendOut bf rz (prm p 0 11 5) (prm p 0 20 4) (prm p 1 36 28) b.1 vr.1

/-- ATTEND, once its checks have passed: query rows, keys, scores. -/
def UWork.attendRun (w : UWork) (bf rz : Bool) (p : List Nat) (rs : List Run) (spill : Bool) : List PByte × UWork :=
  let g := prm p 0 11 5
  let h := g * prm p 0 16 4
  let dh := prm p 0 20 4
  let qr := (List.range h).foldl (fun (acc : List (List (Num × Bool)) × UWork) r =>
    let d := acc.2.buf (32 * prm p 0 0 11 + r * dh * 64) (dh * 64)
    (acc.1 ++ [bfOf d.1 (dh * 32)], d.2)) ([], w)
  let kr := qr.2.loadRuns dh true rs
  if kr.2.stop != 0 then ([], kr.2)
  else
    kr.2.attendNorm bf rz p rs spill
      (qr.1.zipIdx.map fun q => kr.1.map (scoreOf (prm p 0 32 32) q.1 (prm p 1 36 28 + q.2 / g))) kr.1.length

/-- ATTEND: the run list is checked before any access to the core dies, the entries that can be read for what R270 and R271 end the command for; the lowest code
stands (R250). -/
def UWork.attend (w : UWork) (bf rz : Bool) (p : List Nat) : List PByte × UWork :=
  let kvf := prm p 0 24 4
  let dh := prm p 0 20 4
  let n := prm p 1 11 9
  let lr := w.buf (32 * prm p 1 0 11) (16 * n)
  let w := lr.2
  let sound := ((List.range n).filter fun i => !ppois ((lr.1.drop (16 * i)).take 16)).map (runAt (pdata lr.1))
  let wide (f : Nat) : Bool := !mvFmt f || decide (elemBits kvf < elemBits f)
  let rs := sound.filter fun r => r.segment == prm p 1 20 16 && r.count != 0
  let slim (f : Nat) : Bool := decide (elemBits f < elemBits kvf)
  let s := prm p 0 11 5 * prm p 0 16 4 * (rs.map (·.count)).sum
  let spill := decide (32 * prm p 2 11 11 < 4 * s)
  if sound.any fun r => wide r.kFmt || wide r.vFmt then w.endWith 2
  else if sound.any (fun r => decide (64 < r.count) || r.kExp == 128 || r.vExp == 128)
      || rs.any (fun r => decide (2 ^ 30 < runEnd r.kAddr r.kFmt dh r.count) || decide (2 ^ 30 < runEnd r.vAddr r.vFmt dh r.count))
      || (spill && (prm p 2 22 1 == 0 || decide (2 ^ 30 < 32 * prm p 2 23 25 + 4 * s))) then w.endWith 3
  else if ppois lr.1 then w.endWith 4
  else ({ w with narrow := w.narrow + rs.countP fun (r : Run) => slim r.kFmt || slim r.vFmt } : UWork).attendRun bf rz p rs spill

/-- A primitive whose parameters have passed R252 runs. -/
def UWork.prim (w : UWork) (prim : Nat) (bf rz : Bool) (p : List Nat) : List PByte × UWork :=
  match prim with
  | 1 => w.mv bf rz p
  | 2 => w.attend bf rz p
  | 3 => w.segred bf rz p
  | 4 => w.gather p
  | 5 => w.member p
  | 6 => ([], w.copy p)
  | _ => ([], w)

end Sys2Proof.Machine
end

