-- ==== Sys2Proof/Machine/Privet.lean ====
section
/-!
DEFINITION. Meanings of the Privet family: commands of a unit, their primitives and completion, the time limit, buffers, loading
of micro-programs, counters and ABORT (08 R244 to R283).
-/

namespace Sys2Proof.Machine

/-! ## Acceptance (08 R245, R246) -/

/-- Unit, and offset in its command register area, of a die address. -/
def unitRegAt (a : Nat) : Option (Nat × Nat) :=
  match placeOf a with
  | .control off =>
    if 0x04000000 ≤ off ∧ off < 0x04020000 then some ((off - 0x04000000) / 0x100, off % 0x100) else none
  | _ => none

/-- A whole grain at COMMAND that stands at its stack port, where the stack's units are powered. -/
def State.grainAt (s : State) (id : Nat) : Option (Txn × Nat) :=
  (s.ready id (· == .write)).bind fun q =>
    match unitRegAt q.dest.addr with
    | some (u, 0x40) => if q.data.bytes.length = 64 && !(s.tier (u / 64)).doze then some (q, u) else none
    | _ => none

/-- The port replaces PART by the request's partition. -/
def cmdWithPart (b : List Byte) (p : Option Nat) : List Byte :=
  match p with
  | some v => putAt b 0 (leBytes 8 (setBits (fieldAt b 0 8) 14 4 v))
  | none => b

/-- A command grain enters its unit's queue of eight, or waits at the port. -/
def State.acceptCmd (s : State) (id : Nat) (bad : Bool) : State :=
  match s.grainAt id with
  | none => s
  | some (q, u) =>
    let x := s.unit u
    if x.load || 8 ≤ x.queue.length then s
    else
      let c : UCmd := { bytes := cmdWithPart q.data.bytes q.part, bad := bad || q.data.poison }
      let s := { s with totals := { s.totals with parity := satAdd 32 s.totals.parity (b2n bad) } }
      (s.setUnit u (({ x with queue := x.queue ++ [c] } : PUnit).next (s.unitTs u))).respond id {} 0 false none

def execPrivetCommandAccept (txn : Nat) (bad : Bool) (s : State) : Host.Outcome State Fault Refusal :=
  s.inner (if s.isReady then s.acceptCmd txn bad else s)

/-! ## Fields of a command -/

def UCmd.resultEn (c : UCmd) : Bool := c.w0.testBit 18
def UCmd.recordEn (c : UCmd) : Bool := c.w0.testBit 19
def UCmd.tallyEn (c : UCmd) : Bool := c.w0.testBit 20
def UCmd.rz (c : UCmd) : Bool := c.w0.testBit 24
def UCmd.bf (c : UCmd) : Bool := c.w0.testBit 25
def UCmd.addr (c : UCmd) : Nat := bits (fieldAt c.bytes 8 8) 0 40
def UCmd.outOff (c : UCmd) : Nat := 32 * bits (fieldAt c.bytes 8 8) 40 11
def UCmd.params (c : UCmd) : List Nat := (List.range 6).map fun i => fieldAt c.bytes (16 + 8 * i) 8

/-- Grains sent to RESULT_ADDR for `n` result grains, and whether the record is one of them (08 R248). -/
def UCmd.sends (c : UCmd) (n : Nat) : Nat × Bool :=
  let g := if c.resultEn then n else 0
  let rec_ := (c.resultEn && c.recordEn) || (c.tallyEn && g == 0)
  (g + b2n rec_, rec_)

/-- Is RESULT_ADDR a tile scratchpad address on a grain? -/
def UCmd.addrOk (c : UCmd) : Bool :=
  match placeOf c.addr with
  | .scratch _ off => off % 64 == 0
  | _ => false

/-- Do the grains sent stay in the tile's 2 MiB? -/
def UCmd.fits (c : UCmd) (n : Nat) : Bool :=
  match placeOf c.addr with
  | .scratch _ off => decide (off + 64 * (c.sends n).1 ≤ 0x200000)
  | _ => false

/-- Does a result of `n` grains stay in the buffer? -/
def UCmd.inBuffer (c : UCmd) (n : Nat) : Bool := decide (c.outOff + 64 * n ≤ 65536)

/-- The checks of 08 R252 on a primitive: none where it may run; else how many poisoned grains it writes (R251). -/
def UCmd.refused (c : UCmd) : Option Nat :=
  let p := c.params
  let n := primGrains c.prim c.bf p
  let leaves := c.resultEn || c.tallyEn
  let past := decide (256 < n) || !c.inBuffer n || (leaves && c.addrOk && !c.fits n)
  if primOver c.prim p then some 1
  else if primBad c.prim p then some (if past then 1 else n)
  else if primEmpty c.prim p then none
  else if past then some 1
  else if (leaves && !c.addrOk) || primRuns c.prim p then some n
  else none

/-- A command that ends with BAD_CMD before any core-die access (08 R252), and its poisoned grains: bad parity (15 R482), a Reserved PRIM, a micro-program whose
RESULT_ADDR is wrong, or what R252 says of a primitive. -/
def UCmd.fault (c : UCmd) : Option Nat :=
  if c.bad || decide (6 < c.prim) then some 1
  else if c.prim = 0 then (if (c.resultEn || c.tallyEn) && !c.addrOk then some 1 else none)
  else c.refused

/-! ## The end of a command's work -/

/-- The statuses whose result is written poisoned throughout (08 R251). -/
def allPoison (status : Nat) : Bool := status != 0 && status != 4

/-- The result record (08 R249). Nothing read contributes to a result that is poisoned throughout. -/
def resultRecord (tag status : Nat) (x : UAcc) (r : URun) (beats n : Nat) : List Byte :=
  leBytes 4 (status + 256 * b2n x.zeroLen + 512 * b2n (x.used && !allPoison status) + 1024 * b2n (decide (0 < x.narrow)) + 2048 * b2n x.attEmpty
      + 4096 * b2n x.probeLimit + 65536 * min r.yields 0xFFFF)
    ++ leBytes 4 tag ++ leBytes 4 (min beats (2 ^ 32 - 1)) ++ leBytes 4 (min r.pauseBeats (2 ^ 32 - 1))
    ++ leBytes 4 (min (x.low + x.high) (2 ^ 32 - 1)) ++ leBytes 4 x.sats ++ leBytes 2 n ++ zeros 38

/-- Result grains stand in the buffer at OUT_OFF, where they lie in it (08 R248). -/
def UWork.place (w : UWork) (c : UCmd) (res : List PByte) : UWork :=
  let gs := chunksOf 64 (res.length / 64 + 1) res
  if c.inBuffer gs.length then gs.zipIdx.foldl (fun w g => w.putBuf (c.outOff + 64 * g.2) (pmark (ppois g.1) (pdata g.1))) w else w

/-- The result is in: it goes to the buffer and leaves the unit (08 R248, R251); what remains is the wait for acknowledgements. -/
def State.unitFinish (s : State) (w : UWork) (r : URun) (status beats : Nat) (res : List PByte) : State :=
  let c := r.cmd
  let gs := chunksOf 64 (res.length / 64 + 1) res
  let n := gs.length
  let w := w.place c res
  let rc := resultRecord c.tag status w.toUAcc r beats n
  let sent := c.sends n
  let out := if c.addrOk && c.fits n then
      (if c.resultEn then gs.map fun g => (⟨pdata g, ppois g⟩ : Piece) else []) ++ (if sent.2 then [⟨rc, false⟩] else [])
    else []
  let r : URun := { r with computed := true, status := status, acc := w.toUAcc, past := [], record := rc, acks := out.length }
  let s : State := { s with free := w.free }
  let s := (s.setUnit w.u { w.x with running := some r, tokenWait := false }).fromTier w.t
  -- an error met may have ended the step and this command with it (11 R386)
  if h : w.u < 512 ∧ (s.unit w.u).running.isSome = true then
    out.zipIdx.foldl (fun s g => s.ask
      { id := 0, agent := .unit ⟨w.u, h.1⟩, kind := .write, dest := ⟨none, c.addr + 64 * g.2⟩, len := 64, data := g.1, part := some c.part
        rtally := if c.tallyEn then some ⟨bits c.w0 21 3, Nat.lt_of_lt_of_le (Nat.mod_lt _ (by decide)) (by decide)⟩ else none
        purpose := .result ⟨w.u, h.1⟩ }) s
  else s

/-- `n` poisoned grains (08 R251). -/
def poisonGrains (n : Nat) : List PByte := pmark true (noData (64 * n))

/-- A unit with its stack's tier, its command working. -/
def State.unitWork (s : State) (u : Nat) (x : UAcc) : UWork := { x with u := u, t := { k := u / 64, t := s.tier (u / 64) }, x := s.unit u, free := s.free }

/-- The same at the beginning of the primitive in hand: what it did in earlier steps stays done, and `room` bounds its accesses. -/
def State.primWork (s : State) (u : Nat) (r : URun) (room : Option Nat) : UWork :=
  { s.unitWork u r.base with made := r.made, room := room, past := r.past }

/-- The errors that a command's run meets are in place before it. -/
def State.unitUpset (s : State) (u : Nat) (i : UnitIn) : State :=
  let s := i.upsets.foldl (fun (s : State) x => s.entryErr (u / 64) (64 * x.1) x.2) s
  let t := i.upsets.foldl (fun (t : TWork) x => t.disturb x.1 x.2) { k := u / 64, t := s.tier (u / 64) }
  let s := if i.upsets.isEmpty then s else s.setTier (u / 64) t.t
  if i.bufErrs.isEmpty then s
  else s.modUnit u fun x => i.bufErrs.foldl (fun (x : PUnit) e => { x with bufWords := SMap.set 0 x.bufWords (e.1 % 8192) (if e.2 then 2 else 3) }) x

/-- A command ends early with status `st`: nothing more is read, and its `n` result grains are poisoned throughout (08 R251). The lowest code stands (R250). -/
def State.unitFail (s : State) (w : UWork) (r : URun) (st beats n : Nat) : State :=
  s.unitFinish { w with sats := 0, used := false } r (if w.pois then min st 4 else st) beats (poisonGrains n)

/-! ## Accesses in turn (08 R247, R253, R260, R278 to R280; 07 R239) -/

/-- Has the partition of unit `u`'s command an empty in-stack bucket? -/
def State.unitPoor (s : State) (u part : Nat) : Bool := !s.paid part (8 + u / 64) && !s.borrows part

/-- How many of `n` accesses in a row a partition's in-stack tokens allow: each while its bucket is above zero. -/
def State.unitTokens (s : State) (u part n : Nat) : Nat :=
  if s.regOn part (8 + u / 64) then min n ((s.tokens part (8 + u / 64) + 1599) / 1600).toNat else n

/-- As many accesses are charged to the in-stack bucket; those beyond its tokens are borrowed. -/
def State.unitCharge (s : State) (u part n : Nat) : State :=
  if n = 0 then s
  else
    let idx := 8 + u / 64
    let m := s.unitTokens u part n
    let s := (s.partCount part 2 (64 * n)).partCount part 5 (64 * (n - m))
    if s.regOn part idx then { s with buckets := SMap.mod bucketStart s.buckets (64 * part + idx) (· - 1600 * (m : Int)) } else s

/-- The accesses to the grains `l`, at most `n`, one after another, in pseudo-channel `p` whose banks have put off the refreshes that `due` tells: the run, and whether
it pauses. A yield point comes before the first activation and before every 32nd after the last one, and wherever a bank open or next has reached the limit (R279). -/
def URun.go (p : Nat) (due : Nat → Nat) : URun → List Nat → Nat → URun × Bool
  | r, [], _ => ({ r with next := none }, false)
  | r, g :: l, n =>
    let b := bank64 (unitOff p (64 * g))
    let act := SMap.get 0 r.rows b != g / 32 + 1
    let banks := b :: r.rows.keys
    let here := banks.any (fun x => decide (4 ≤ due x)) || (act && (r.acts.isNone || r.acts == some 31))
    match n with
    | 0 => ({ r with next := some b }, false)
    | n + 1 =>
      if here && banks.any (fun x => decide (0 < due x)) then ({ r with next := some b }, true)
      else
        URun.go p due
          { r with
            made := r.made + 1, rows := SMap.set 0 r.rows b (g / 32 + 1)
            acts := if act then some (if here then 1 else r.acts.getD 0 + 1) else r.acts } l n

/-- How many accesses the scheduler of its pseudo-channel grants a unit in a row: none past an atomic or a conversion's share, one where the die waits too, which has the
next (R260, 07 R223; log 95). -/
def State.unitTurns (s : State) (u n : Nat) : Nat :=
  let t := s.tier (u / 64)
  if s.atomicWaits (u / 64) (u % 64) then 0
  else if s.dieWaits (u / 64) (u % 64) then (if SMap.get 0 t.lastGrant (u % 64) = 2 || s.convFirst (u / 64) (u % 64) then 0 else min n 1)
  else if t.conv.isSome && pchOf t.convAt == u % 64 then min n (3 - t.convWait) else n

/-- The command in hand goes on through its accesses as far as the operand, the base-die scheduler, tokens and refreshes let it (R260, R239, R279). -/
def State.unitGo (s : State) (u : Nat) (r : URun) (i : UnitIn) (trace : List Nat) : State :=
    let left := trace.drop r.made
    let want := s.unitTurns u (min (i.accesses.getD left.length) left.length)
    let can := if s.borrows r.cmd.part then want else s.unitTokens u r.cmd.part want
    let t := s.tier (u / 64)
    let g := r.go (u % 64) (fun b => SMap.get 0 t.refresh (64 * (u % 64) + b)) left can
    let n := g.1.made - r.made
    let poor := !g.2 && decide (can < want)
    let s := s.unitCharge u r.cmd.part n
    let s := if n = 0 then s
      else s.setTier (u / 64) { (s.tier (u / 64)).beside (u % 64) n with lastGrant := SMap.set 0 (s.tier (u / 64)).lastGrant (u % 64) 2 }
    let s := (s.partCount r.cmd.part 4 i.waited).modUnit u fun x =>
      { ((x.bump 0xE4 i.waited).bump 0xD4 (b2n g.2)) with
        tokenWait := poor
        running := some { g.1 with paused := g.2, pausedAt := if g.2 then s.ts else r.pausedAt, yields := min (r.yields + b2n g.2) 0xFFFF } }
    s.stackCount (u / 64) 0xB (b2n g.2)

/-- Has a command run longer than the limit? Pauses do not count (08 R253). -/
def State.overTime (s : State) (u : Nat) (r : URun) : Bool := decide (1000 * s.odv 0x6040 3 < s.unitTs u - r.startTs - r.pauseNs)

/-- Result grains that a command's parameters give, where they do. -/
def UCmd.grains (c : UCmd) : Nat := if c.prim = 0 || primOver c.prim c.params then 0 else min 256 (primGrains c.prim c.bf c.params)

/-- A command past the limit ends with TIME_LIMIT (08 R253). One that has only acknowledgements to wait for keeps what has landed: its grains still in the unit, and those
in its buffer, are poisoned, and its record says so. -/
def State.unitLimit (s : State) (u : Nat) (r : URun) (beats : Nat) : State :=
  if !r.computed then
    (match r.cmd.fault with
     | some n => s.unitFail (s.unitWork u r.acc) r 3 beats n
     | none => s.unitFail (s.unitWork u r.acc) r 7 beats r.cmd.grains)
  else
    let st := if r.status = 0 then 7 else r.status
    let x : UAcc := { r.acc with sats := 0, used := false }
    let n := fieldAt r.record 0x18 2
    let rc := resultRecord r.cmd.tag st x r beats n
    let w := (s.unitWork u x).place r.cmd (poisonGrains n)
    let s := (s.setUnit u { w.x with running := some { r with status := st, acc := x, record := rc } }).fromTier w.t
    { s with txns := s.txns.map fun q => (match q.purpose with
        | .result v => if v.val == u && q.stage == .queued then { q with data := if q.data.bytes == r.record then ⟨rc, false⟩ else ⟨noData 64, true⟩ } else q
        | _ => q) }

/-- The end of a primitive that has made its accesses. A result written poisoned throughout has no saturations (R251, 15 R474). -/
def State.primDone (s : State) (q : List PByte × UWork) (r : URun) (beats : Nat) : State :=
  let c := r.cmd
  if q.2.stop != 0 then s.unitFinish { q.2 with sats := 0 } r q.2.stop beats (poisonGrains (primGrains c.prim c.bf c.params))
  else s.unitFinish q.2 r (if q.2.pois then 4 else 0) beats q.1

/-- A primitive goes on: the accesses that it may make in this step are performed as they are made, and what they gave is kept, so that no later step performs or sees
them anew (R251, R259). Its result, where it has come to its end. -/
def State.primGo (s : State) (u : Nat) (i : UnitIn) (prim : Nat) (p : List Nat) : Option (List PByte × UWork × URun) × State :=
  match (s.unit u).running with
  | none => (none, s)
  | some r =>
    let c := r.cmd
    let trace := ((s.primWork u r none).prim prim c.bf c.rz p).2.trace.reverse
    let s := if trace.isEmpty then s else s.unitGo u r i trace
    match (s.unit u).running with
    | none => (none, s)
    | some g =>
      let complete := !g.paused && g.made == trace.length
      let q := (s.primWork u r (if complete then none else some g.made)).prim prim c.bf c.rz p
      let g : URun := { g with acc := q.2.toUAcc, past := q.2.log.reverse }
      if complete then (some (q.1, q.2, g), s)
      else (none, (({ s with free := q.2.free } : State).setUnit u { q.2.x with running := some g }).fromTier q.2.t)

/-- A primitive's run: its checks, its accesses, the result. -/
def State.runPrim (s : State) (u prim : Nat) (i : UnitIn) : State :=
  match (s.unit u).running with
  | none => s
  | some r =>
    let c := r.cmd
    if r.computed || r.paused || c.bad || c.prim != prim then s
    else if s.overTime u r then s.unitLimit u r i.beats
    else
      match c.refused with
      | some n => s.unitFail (s.unitWork u r.acc) r 3 i.beats n
      | none =>
        if primEmpty prim c.params then s.unitFinish (s.unitWork u { r.acc with zeroLen := true }) r 0 i.beats []
        else
          let g := (s.unitUpset u i).primGo u i prim c.params
          match g.1 with
          | some q => g.2.primDone (q.1, q.2.1) q.2.2 i.beats
          | none => g.2

def execMv (u : UnitId) (i : UnitIn) (s : State) : Host.Outcome State Fault Refusal := s.inner (if s.isReady then s.runPrim u.val 1 i else s)
def execAttend (u : UnitId) (i : UnitIn) (s : State) : Host.Outcome State Fault Refusal := s.inner (if s.isReady then s.runPrim u.val 2 i else s)
def execSegred (u : UnitId) (i : UnitIn) (s : State) : Host.Outcome State Fault Refusal := s.inner (if s.isReady then s.runPrim u.val 3 i else s)
def execPrivetGather (u : UnitId) (i : UnitIn) (s : State) : Host.Outcome State Fault Refusal := s.inner (if s.isReady then s.runPrim u.val 4 i else s)
def execMember (u : UnitId) (i : UnitIn) (s : State) : Host.Outcome State Fault Refusal := s.inner (if s.isReady then s.runPrim u.val 5 i else s)
def execPrivetCopy (u : UnitId) (i : UnitIn) (s : State) : Host.Outcome State Fault Refusal := s.inner (if s.isReady then s.runPrim u.val 6 i else s)

/-! ## Micro-programs (08 R257) -/

/-- Parameters that R252 would reject, of a primitive that a micro-program invokes. -/
def UCmd.rejects (c : UCmd) (prim : Nat) (p : List Nat) : Bool :=
  prim == 0 || primOver prim p || primBad prim p ||
    (!primEmpty prim p && (decide (256 < primGrains prim c.bf p) || !c.inBuffer (primGrains prim c.bf p) || primRuns prim p))

/-- A store word is fetched, with its error (08 R244, 15 R478): a corrected one or an uncorrectable one. -/
def UWork.fetched (w : UWork) (pc : Nat) (errs : List (Nat × Bool)) : UWork :=
  let bad := errs.contains (pc, false)
  let x := (w.x.bump 0xF0 (b2n (errs.contains (pc, true)))).bump 0xF4 (b2n bad)
  { w with x := x, t := { w.t with evs := w.t.evs ++ if bad then [sramUncorr (0x80 + w.u / 64) 6 (4096 * w.u + 4 * pc)] else [] } }

/-- The word after `pc`, named `next`: a loop whose last word has run goes round, or ends. -/
def Micro.advance (m : Micro) (next : Nat) : Micro :=
  match m.loops with
  | (first, last, n) :: l =>
    if m.pc = last then (if 1 < n then { m with pc := first, loops := (first, last, n - 1) :: l } else { m with pc := next, loops := l })
    else { m with pc := next }
  | [] => { m with pc := next }

/-- The program goes on with `m`. -/
def State.microTo (s : State) (u : Nat) (r : URun) (m : Micro) : State := s.modUnit u fun x => { x with running := some { r with micro := m } }

/-- A primitive that the program invokes: its checks, its accesses, its result in the buffer at OUT_OFF (R248). Whether the program goes on in this step. -/
def State.microPrim (s : State) (u : Nat) (r : URun) (i : UnitIn) (prim : Nat) (p : List Nat) : Bool × State :=
  let c := r.cmd
  if c.rejects prim p then (false, s.unitFail (s.unitWork u r.acc) r 6 i.beats 0)
  else if primEmpty prim p then (true, s.microTo u { r with acc := { r.acc with zeroLen := true }, base := { r.acc with zeroLen := true } } (r.micro.advance (r.micro.pc + 1)))
  else
    let g := s.primGo u i prim p
    match g.1 with
    | none => (false, g.2)
    | some (res, w, r) =>
      if w.stop != 0 then (false, g.2.unitFail w r (if w.stop = 3 then 6 else w.stop) i.beats 0)
      else
        let w := w.place c res
        let r : URun := { r with acc := w.toUAcc, base := w.toUAcc, made := 0, past := [], micro := r.micro.advance (r.micro.pc + 1) }
        (true, ((({ g.2 with free := w.free } : State).setUnit u { w.x with running := some r }).fromTier w.t))

/-- The program ends with a result of `g` grains, which stands in the buffer at OUT_OFF (R257); one past its places is a BAD_CMD of one grain (R251). -/
def State.microEnd (s : State) (u : Nat) (r : URun) (beats g : Nat) : State :=
  let c := r.cmd
  if 256 < g || !c.inBuffer g || ((c.resultEn || c.tallyEn) && !c.fits g) then s.unitFail (s.unitWork u r.acc) r 3 beats 1
  else
    let q := (s.unitWork u r.acc).buf c.outOff (64 * g)
    s.unitFinish q.2 r (if q.2.pois then 4 else 0) beats q.1

/-- One store word of the program: running past word 1,023 and a fifth loop end it with PROGRAM_FAULT, an uncorrectable word with STORE_UNCORR. -/
def State.microWord (s : State) (u : Nat) (r : URun) (errs : List (Nat × Bool)) (i : UnitIn) : Bool × State :=
  let m := r.micro
  if 1024 ≤ m.pc then (false, s.unitFail (s.unitWork u r.acc) r 6 i.beats 0)
  else
    let w := (s.unitWork u r.acc).fetched m.pc errs
    if errs.contains (m.pc, false) then (false, s.unitFail w r 5 i.beats 0)
    else
      let s := s.setUnit u w.x
      match Config.microAct (SMap.get 0 w.x.store m.pc) m.regs with
      | .step regs next => (true, s.microTo u r (({ m with regs := (List.range 16).map fun i => regs.getD i 0 % 2 ^ 32 } : Micro).advance next))
      | .loop last n =>
        if 4 ≤ m.loops.length then (false, s.unitFail (s.unitWork u r.acc) r 6 i.beats 0)
        else if n = 0 then (true, s.microTo u r { m with pc := last + 1 })
        else (true, s.microTo u r { m with pc := m.pc + 1, loops := (m.pc + 1, last, n) :: m.loops })
      | .invoke p l => s.microPrim u r i p.val l
      | .finish g => (false, s.microEnd u r i.beats g)

/-- Store words in turn, at most `n`. -/
def State.microWords (u : Nat) (errs : List (Nat × Bool)) (i : UnitIn) : State → Nat → State
  | s, 0 => s
  | s, n + 1 =>
    match (s.unit u).running with
    | none => s
    | some r =>
      let x := s.microWord u r errs i
      if x.1 then State.microWords u errs i x.2 n else x.2

/-- MICRO_PROGRAM: the running micro-program goes on. -/
def State.runMicro (s : State) (u : Nat) (m : MicroIn) (i : UnitIn) : State :=
  match (s.unit u).running with
  | none => s
  | some r =>
    let c := r.cmd
    if r.computed || r.paused || c.bad || c.prim != 0 then s
    else if s.overTime u r then s.unitLimit u r i.beats
    else if (c.resultEn || c.tallyEn) && !c.addrOk then s.unitFail (s.unitWork u r.acc) r 3 i.beats 1
    else State.microWords u m.errs i (s.unitUpset u i) m.words

def execMicroProgram (u : UnitId) (m : MicroIn) (i : UnitIn) (s : State) : Host.Outcome State Fault Refusal :=
  s.inner (if s.isReady then s.runMicro u.val m i else s)

/-! ## Completion (08 R247, R251) -/

/-- The unit's command completes: counters, totals, saturations, and the notice of a fault to Laurel and the log. -/
def State.unitComplete (s : State) (u : Nat) (r : URun) : State :=
  let s := s.modUnit u fun x => ({ x.ended r r.status with lastRecord := r.record } : PUnit).next (s.unitTs u)
  let s := (s.unitTotals (u / 64) r r.status).credit 5 r.acc.sats
  if r.status = 0 || r.status = 8 then s
  else
    let s := s.post { code := 0x31, source := 0x80 + u / 64, args := [u, r.status, r.cmd.tag, r.cmd.part] }
    { s with unitNotices := s.unitNotices ++ [(u, r.status, r.cmd.tag, r.cmd.part)] }

/-- PRIVET_COMMAND_COMPLETE: every write has been acknowledged. A command with bad parity or a Reserved PRIM comes to its end here too (R252). -/
def State.commandComplete (s : State) (u beats : Nat) : State :=
  match (s.unit u).running with
  | none => s
  | some r =>
    let s := if !r.computed then (if r.cmd.bad || decide (6 < r.cmd.prim) then s.unitFail (s.unitWork u r.acc) r 3 beats 1 else s)
      else if s.overTime u r then s.unitLimit u r beats else s
    match (s.unit u).running with
    | none => s
    | some r => if r.computed && r.acks = 0 then s.unitComplete u r else s

def execPrivetCommandComplete (u : UnitId) (s : State) (beats : Nat := 0) : Host.Outcome State Fault Refusal :=
  s.inner (if s.isReady then s.commandComplete u.val beats else s)

/-- PRIVET_TIME_LIMIT: a command past the limit ends; pauses do not count (08 R253). -/
def State.timeLimit (s : State) (u beats : Nat) : State :=
  match (s.unit u).running with
  | none => s
  | some r => if r.paused || !s.overTime u r then s else s.unitLimit u r beats

def execPrivetTimeLimit (u : UnitId) (s : State) (beats : Nat := 0) : Host.Outcome State Fault Refusal :=
  s.inner (if s.isReady then s.timeLimit u.val beats else s)

/-! ## Buffers (08 R254, R255) -/

/-- A write of a unit's buffer from the die. -/
def State.unitBuffer (s : State) (id : Nat) : State :=
  match s.ready id (· == .write) with
  | none => s
  | some q =>
    match placeOf q.dest.addr with
    | .control off =>
      if 0x5000000 ≤ off ∧ off < 0x7000000 then
        let u := (off - 0x5000000) / 0x10000
        if (s.tier (u / 64)).doze then s
        else (s.bufWrite u (off % 0x10000) q.data).respond id {} 0 false none
      else s
    | _ => s

def execUnitBufferWrite (txn : Nat) (s : State) : Host.Outcome State Fault Refusal := s.inner (if s.isReady then s.unitBuffer txn else s)

/-- A write of a stack's broadcast window: every buffer of the stack. -/
def State.broadcastBuffers (s : State) (id : Nat) : State :=
  match s.ready id (· == .write) with
  | none => s
  | some q =>
    match placeOf q.dest.addr with
    | .control off =>
      if 0x4100000 ≤ off ∧ off < 0x4180000 then
        let k := (off - 0x4100000) / 0x10000
        if (s.tier k).doze then s
        else ((List.range 64).foldl (fun s p => s.bufWrite (64 * k + p) (off % 0x10000) q.data) s).respond id {} 0 false none
      else s
    | _ => s

def execBroadcastWindowWrite (txn : Nat) (s : State) : Host.Outcome State Fault Refusal :=
  s.inner (if s.isReady then s.broadcastBuffers txn else s)

/-! ## Loading (08 R258) -/

/-- UNIT_CTL as a port writes it: only the steward's port is heard (08 R244). -/
def State.portUnitCtl (s : State) (p : PortId) (u v : Nat) : State := if s.portUp p && p == s.stew.port then s.unitCtl u v else s

def execUnitLoadBegin (p : PortId) (u : UnitId) (s : State) : Host.Outcome State Fault Refusal :=
  s.inner (s.portUnitCtl p u.val 1)

/-- A load grain writes 16 store words. -/
def PUnit.loadWords (x : PUnit) (b : List Byte) : PUnit :=
  { x with
    store := (List.range 16).foldl (fun m i => SMap.set 0 m ((x.loadAddr + i) % 1024) (fieldAt b (4 * i) 4)) x.store
    loadAddr := (x.loadAddr + 16) % 1024
    crcValid := false }

def State.loadGrain (s : State) (id : Nat) : State :=
  match s.grainAt id with
  | none => s
  | some (q, u) =>
    if (s.unit u).load then (s.modUnit u fun x => x.loadWords (padTo 64 q.data.bytes)).respond id {} 0 false none else s

def execLoadGrain (txn : Nat) (s : State) : Host.Outcome State Fault Refusal := s.inner (if s.isReady then s.loadGrain txn else s)

/-- A write of 0 to LOAD; the other bits of UNIT_CTL are commands. -/
def execUnitLoadEnd (p : PortId) (u : UnitId) (s : State) : Host.Outcome State Fault Refusal :=
  s.inner (s.portUnitCtl p u.val 0)

/-- STORE_CRC_DONE: the CRC of the store is in. -/
def State.storeCrcDone (s : State) (u : Nat) : State :=
  s.modUnit u fun x =>
    if x.load || !x.crcDue then x else ({ x with crc := x.storeCrc, crcValid := true, crcDue := false } : PUnit).next (s.unitTs u)

def execStoreCrcDone (u : UnitId) (s : State) : Host.Outcome State Fault Refusal := s.inner (if s.isReady then s.storeCrcDone u.val else s)

/-- CNT_CLR written with LOAD as it stands. -/
def execUnitCntClr (p : PortId) (u : UnitId) (s : State) : Host.Outcome State Fault Refusal :=
  s.inner (s.portUnitCtl p u.val (2 + b2n (s.unit u.val).load))

/-- ABORT written with LOAD as it stands. -/
def execAbortUnit (p : PortId) (u : UnitId) (s : State) : Host.Outcome State Fault Refusal :=
  s.inner (s.portUnitCtl p u.val (4 + b2n (s.unit u.val).load))

end Sys2Proof.Machine
end

