-- ==== Sys2Proof/Machine/Image.lean ====
section
/-!
DEFINITION. Program images: header, sections and model declaration as an IMAGE_LOAD checks and applies them, and what a failed load and
an unload leave (10 R347 to R349; 05 R167; 11 R357 to R359; 17 R516, R517).
-/

namespace Sys2Proof.Machine

/-! ## Header and section table (10 R347) -/

/-- A section table entry. -/
structure Sect where
  idx : Nat
  ty : Nat
  target : Nat
  aux : Nat
  off : Nat
  len : Nat
  dest : Nat
  deriving DecidableEq, Repr

/-- Section `i` of an image. -/
def sectAt (img : List Byte) (i : Nat) : Sect :=
  let e := (img.drop (0x80 + 32 * i)).take 32
  { idx := i, ty := fieldAt e 0 1, target := fieldAt e 2 2, aux := fieldAt e 4 4, off := fieldAt e 8 8, len := fieldAt e 16 8, dest := fieldAt e 24 8 }

/-- The sections of an image. -/
def sectsOf (img : List Byte) : List Sect := (List.range (fieldAt img 6 2)).map (sectAt img)

def Sect.data (x : Sect) (img : List Byte) : List Byte := (img.drop x.off).take x.len

/-- End of the bytes that sections may use: the signature block, or the image's end by IMAGE_LEN. -/
def imageLimit (img : List Byte) : Nat := let g := fieldAt img 0x20 8; if g = 0 then fieldAt img 8 8 else g

/-- Reason for which a header is refused (10 R349), 0 for none. `len` is the descriptor's LEN. -/
def headerReason (img : List Byte) (len : Nat) : Nat :=
  let n := fieldAt img 6 2
  let sig := fieldAt img 0x20 8
  if img.length < 0x80 || fieldAt img 0 4 != 0x4D495658 || fieldAt img 4 2 != 1 || fieldAt img 8 8 != len
      || n == 0 || decide (4096 < n) || sig % 64 != 0 || (sig != 0 && sig + 7283 != len) || decide (imageLimit img < 0x80 + 32 * n) then 2
  else if fieldAt img 0x10 2 != 0x8812 || !(fieldAt img 0x12 2 == 0xB0 || fieldAt img 0x12 2 == 0) then 3
  else 0

/-- Is a section's type, data, target or length out of bounds (reason 0x04)? -/
def Sect.bad (x : Sect) (limit : Nat) : Bool :=
  (x.ty != 5 && (x.off % 64 != 0 || decide (limit < x.off + x.len))) ||
  (match x.ty with
   | 1 => (decide (128 ≤ x.target) && x.target != 0xFFFF) || decide (65536 < x.dest + x.len)
   | 2 => (decide (128 ≤ x.target) && x.target != 0xFFFF) || decide (65536 < x.dest + x.len)
   | 3 => (decide (512 ≤ x.target) && x.target != 0xFFFF) || x.len % 64 != 0 || decide (4096 < x.len) || decide (4096 < 4 * x.dest + x.len)
   | 4 => false
   | 5 => false
   | 6 => x.len % 128 != 0 || decide (1024 < x.dest + x.len / 128)
   | 7 => x.dest != 0
   | _ => true)

/-! ## Scale slots (05 R167) -/

/-- A slot record of an image. -/
def slotOf (b : List Byte) : Slot :=
  let w := fieldAt b 0 4
  let k := w.testBit 15
  { declared := true, exp := BitVec.ofNat 8 w, fmt := bits w 8 4, cls := bits w 12 3, kOverride := k, kSlot := bits w 16 5
    copy := [bits w 8 4, bits w 12 3, b2n k, bits w 16 5] }

/-- Is a slot record refused? -/
def Slot.refused (x : Slot) : Bool :=
  (x.kOverride && (x.kSlot == 0 || decide (16 < x.kSlot))) || !(x.fmt == 3 || x.fmt == 4 || x.fmt == 8 || x.fmt == 9) || x.exp == 0x80#8

/-! ## The model declaration (11 R357 to R359) -/

def sliceOf (b : List Byte) : Slice :=
  let w := fieldAt b 4 4
  let v := fieldAt b 8 8
  { layer := fieldAt b 0 2, head := fieldAt b 2 2, extent := bits w 0 4, unit := bits w 4 6, kOff := bits w 10 10, vOff := bits w 20 10
    rlSlot := bits v 0 3, blockMod := bits v 3 7, blockRem := bits v 10 6, kSlot := bits v 16 10, vSlot := bits v 26 10 }

/-- First byte of the step program. -/
def programAt (b : List Byte) : Nat := cdiv (0x100 + 16 * fieldAt b 0x1A 2 + 4 * fieldAt b 0x1C 2 + 8 * fieldAt b 0x1E 2) 64 * 64

/-- Entry `i` of `n` bytes from an offset. -/
def entryAt (b : List Byte) (o n i : Nat) : List Byte := (b.drop (o + n * i)).take n

def declOf (b : List Byte) : Decl :=
  let ns := fieldAt b 0x1A 2
  let nw := fieldAt b 0x1C 2
  let wo := 0x100 + 16 * ns
  let so := wo + 4 * nw
  { layers := fieldAt b 2 2, kvHeads := fieldAt b 4 2, dh := bits (fieldAt b 6 1) 0 4, kvFmt := bits (fieldAt b 7 1) 0 4
    spread := bits (fieldAt b 8 1) 0 1, extPerBlock := fieldAt b 9 1, maxBlocks := fieldAt b 0xA 2, eos := fieldAt b 0xC 4
    chunk := fieldAt b 0x10 2, pack := fieldAt b 0x12 2, cRow := fieldAt b 0x14 2, cKv := fieldAt b 0x16 2, cPre := fieldAt b 0x18 2
    rlSlots := bits (fieldAt b 0x22 1) 0 4, rlBase := bits (fieldAt b 0x24 4) 0 25
    extStack := (List.range 16).map fun e => fieldAt b (0x28 + e) 1
    pools := (List.range 8).map fun k => (fieldAt b (0x38 + 4 * k) 2, fieldAt b (0x3A + 4 * k) 2)
    spill := (fieldAt b 0x58 2, fieldAt b 0x5A 2), bucketsLog2 := fieldAt b 0x5C 1
    bucketBase := fieldAt b 0x60 8, nodeBase := fieldAt b 0x68 8, stackNodes := fieldAt b 0x70 4, boardNodes := fieldAt b 0x74 4
    boardNodeBase := fieldAt b 0x78 8, blocktab := fieldAt b 0x80 8
    slices := (List.range ns).map fun i => sliceOf (entryAt b 0x100 16 i)
    weights := (List.range nw).map fun i => fieldAt (entryAt b wo 4 i) 0 4
    spares := (List.range (fieldAt b 0x1E 2)).map fun i => (fieldAt (entryAt b so 8 i) 0 4, bits (fieldAt (entryAt b so 8 i) 4 4) 0 15)
    kernels := (List.range (fieldAt b 0x20 2)).map fun i => entryAt b (programAt b) 64 i }

/-- Bytes of a slice's keys, or values, for 64 tokens with their scale bytes (08 R270). -/
def sliceBytes (fmt dh : Nat) : Nat := runEnd 0 fmt dh 64

/-- Bytes of a Beryl node (11 R384). -/
def Decl.nodeBytes (d : Decl) : Nat := cdiv (448 + 16 * d.slices.length) 64 * 64

/-- Are the fields of a declaration in their ranges? -/
def Decl.ranged (d : Decl) : Bool :=
  let within (lo hi x : Nat) : Bool := decide (lo ≤ x) && decide (x ≤ hi)
  within 1 1024 d.layers && within 1 1024 d.kvHeads && within 1 8 d.dh && mvFmt d.kvFmt && within 1 16 d.extPerBlock && within 1 256 d.maxBlocks
    && within 64 4096 d.chunk && d.chunk % 64 == 0 && decide (d.pack ≤ 4096) && within 1 8192 d.slices.length && within 1 256 d.kernels.length
    && within 1 8 d.rlSlots && within 10 24 d.bucketsLog2 && d.extStack.all (fun k => decide (k < 8))
    && d.slices.all (fun x => decide (x.layer < d.layers) && decide (x.head < d.kvHeads) && decide (x.extent < d.extPerBlock)
      && decide (x.rlSlot < d.rlSlots) && within 1 64 x.blockMod && decide (x.blockRem < x.blockMod))
    && d.weights.all (fun w => let a := weightAt w; decide (a.1 ≤ 8) && decide (a.2 < tierPages a.1))
    && d.spares.all (fun x => let a := weightAt x.1; decide (a.1 ≤ 8) && decide (a.2 < tierPages a.1) && decide (x.2 < tierPages 8))
    && d.kernels.all (fun k => fieldAt k 0 1 == 1)

/-- Byte spans of a slice in its unit's 32 KiB: keys, values. -/
def Decl.spans (d : Decl) (x : Slice) : List (Nat × Nat) :=
  let n := sliceBytes d.kvFmt d.dh
  [(32 * x.kOff, 32 * x.kOff + n), (32 * x.vOff, 32 * x.vOff + n)]

def spansMeet (a b : Nat × Nat) : Bool := decide (a.1 < b.2) && decide (b.1 < a.2)

/-- Do the slices lie apart in the 32 KiB of their extents' units? -/
def Decl.apart (d : Decl) : Bool :=
  let l := d.slices.zipIdx
  d.slices.all (fun x => (d.spans x).all fun a => decide (a.2 ≤ 32768)) &&
  l.all fun x =>
    !spansMeet ((d.spans x.1).getD 0 (0, 0)) ((d.spans x.1).getD 1 (0, 0)) &&
    l.all fun y => x.2 == y.2 || x.1.extent != y.1.extent || x.1.unit != y.1.unit ||
      (d.spans x.1).all fun a => (d.spans y.1).all fun b => !spansMeet a b

/-- Do pages `lo` to `hi` of a tier lie in one region entry of a mode? -/
def Tier.inEntry (t : Tier) (lo hi : Nat) (isSealed : Bool) : Bool :=
  (List.range 32).any fun e =>
    let r := SMap.get ({} : Region) t.entries e
    r.valid && r.isSealed == isSealed && !r.converting && decide (r.base ≤ lo) && decide (hi ≤ r.limit)

/-- Does a range of the die lie in one Sealed region entry? An empty one has no range. -/
def State.inSealed (s : State) (a n : Nat) : Bool :=
  n == 0 ||
  match placeOf a with
  | .tier k off => decide (off + n ≤ tierBytes k) && (s.tier k).inEntry (pageOf off) (pageOf (off + n - 1)) true
  | _ => false

/-- Does a declaration pass the checks of 11 R359 beyond its ranges? -/
def State.declOk (s : State) (d : Decl) : Bool :=
  let slot (i : Nat) : Slot := SMap.get {} s.laurel.slots i
  let stacksUp := (d.slices.map fun x => d.extStack.getD x.extent 0).eraseDups
  let rlEnd := 32 * (d.rlBase + 4096 * d.rlSlots * 128)
  d.slices.all (fun x => (slot x.kSlot).declared && (slot x.kSlot).cls == 1 && (slot x.vSlot).declared && (slot x.vSlot).cls == 2)
    && d.apart
    && ((List.range 8).all fun k =>
      let p := d.pools.getD k (0, 0)
      p.2 == 0 || (s.tier k).inEntry p.1 (p.1 + p.2 - 1) false)
    && stacksUp.all (fun k => decide (rlEnd ≤ 2 ^ 30) && (s.tier k).inEntry (32 * d.rlBase / 32768) ((rlEnd - 1) / 32768) false)
    && ((List.range d.spill.2).all fun i => decide (d.spill.1 + i < tierPages 8) && ((s.tier 8).entryOf (d.spill.1 + i)).isNone)
    && s.inSealed d.bucketBase (4 * 2 ^ d.bucketsLog2)
    && s.inSealed d.nodeBase (d.stackNodes * d.nodeBytes) && s.inSealed d.boardNodeBase (d.boardNodes * d.nodeBytes)
    && s.inSealed d.blocktab (8 * 4096 * d.maxBlocks * d.extPerBlock)
    && d.weights.all (fun w => let a := weightAt w; (s.tier a.1).mode a.1 a.2 == .sealed)
    && d.spares.all (fun x => (s.tier 8).mode 8 x.2 == .sealed)

/-! ## Applying the sections (10 R348) -/

/-- Tiles or units that a TARGET names. -/
def targets (t n : Nat) : List Nat := if t = 0xFFFF then List.range n else [t]

/-- A core memory of a tile takes bytes. -/
def CoreSt.load (c : CoreSt) (imem : Bool) (a : Nat) (d : List Byte) : CoreSt :=
  let inside (k : Nat) : Bool := decide (a ≤ 4 * k + 3) && decide (4 * k < a + d.length)
  if imem then { c with imem := c.imem.write a d, imemErr := SMap.drop c.imemErr inside }
  else { c with dmem := c.dmem.write a d, dmemErr := SMap.drop c.dmemErr inside }

/-- A micro-program store takes words; its CRC is computed. -/
def PUnit.loadStore (x : PUnit) (word : Nat) (d : List Byte) : PUnit :=
  let x := { x with store := (List.range (d.length / 4)).foldl (fun m i => SMap.set 0 m ((word + i) % 1024) (fieldAt d (4 * i) 4)) x.store }
  { x with loadAddr := (word + d.length / 4) % 1024, crc := x.storeCrc, crcValid := true, crcDue := false }

/-- Memory contents at a die address: whether they were performed, or the reason (0x04 where the address is no stack's and not the board tier's). -/
def State.loadMem (s : State) (a : Nat) (d : List Byte) : Nat × State :=
  if d.isEmpty then (0, s)
  else
    match placeOf a, placeOf (a + d.length - 1) with
    | .tier _ _, .tier _ _ => let r := s.writeDie a d false; (if r.1 then 0 else 0xA, r.2)
    | .scratch _ _, _ => (4, s)
    | _, _ => (0xA, s)

/-- One section is applied: reason, 0 for none. -/
def State.applySect (s : State) (img : List Byte) (x : Sect) : Nat × State :=
  match x.ty with
  | 1 => (0, (targets x.target 128).foldl (fun s t => s.modTile t fun y => { y with core := y.core.load true x.dest (x.data img) }) s)
  | 2 => (0, (targets x.target 128).foldl (fun s t => s.modTile t fun y => { y with core := y.core.load false x.dest (x.data img) }) s)
  | 3 => (0, (targets x.target 512).foldl (fun s u => s.modUnit u fun y => y.loadStore x.dest (x.data img)) s)
  | 4 => s.loadMem x.dest (x.data img)
  | 5 => s.loadMem x.dest (zeros x.len)
  | 6 =>
    let recs := (List.range (x.len / 128)).map fun i => slotOf (entryAt (x.data img) 0 128 i)
    if recs.any (·.refused) then (9, s)
    else
      let l := s.laurel
      (0, { s with laurel := { l with slots := recs.zipIdx.foldl (fun m r => SMap.set {} m (x.dest + r.2) r.1) l.slots } })
  | _ =>
    let b := x.data img
    let d := declOf b
    if decide (b.length < 0x100) || fieldAt b 0 2 != 1 || x.len != programAt b + 64 * fieldAt b 0x20 2 || s.laurel.decl.isSome || !d.ranged || !s.declOk d then (4, s)
    else (0, { s with laurel := { s.laurel with decl := some d } })

/-- Sections are applied in table order, up to the first that fails: reason, section. -/
def State.applySects (s : State) (img : List Byte) : List Sect → Nat × Nat × State
  | [] => (0, 0, s)
  | x :: r =>
    let a := s.applySect img x
    if a.1 != 0 then (a.1, x.idx, a.2) else a.2.applySects img r

/-! ## Signature (17 R516, R517) -/

/-- The 14 bytes of the context string VERLIN-IMAGE-1. -/
def imageContext : List Byte := [0x56#8, 0x45#8, 0x52#8, 0x4C#8, 0x49#8, 0x4E#8, 0x2D#8, 0x49#8, 0x4D#8, 0x41#8, 0x47#8, 0x45#8, 0x2D#8, 0x31#8]

/-- Does the owner signature block pass its checks? -/
def sigOk (img key : List Byte) : Bool :=
  let b := img.drop (fieldAt img 0x20 8)
  let pk := (b.drop 0x40).take 2592
  fieldAt b 0 4 == 0x4749534F && fieldAt b 4 2 == 1 && fieldAt b 8 4 == 2592 && fieldAt b 0xC 4 == 4627
    && sha3_512 pk == key && Config.mldsaVerify pk (imageContext ++ img.take 0x80) ((b.drop 0xA60).take 4627)

/-- Is a signature required, and the owner key hash, as served: they act on the next IMAGE_LOAD (17 R517). -/
def State.ownerRule (s : State) : Bool × List Byte := (s.odNow 0x8000 1 == 1, s.ownerNow)

/-- Is the image's signature refused, and is it a verified one, by the rule and key sampled with its header? -/
def signature (rule : Bool × List Byte) (img : List Byte) : Bool × Bool :=
  if fieldAt img 0x20 8 = 0 then (rule.1, false)
  else if rule.1 || rule.2.any (· != 0#8) then (let ok := sigOk img rule.2; (!ok, ok))
  else (false, false)

/-! ## What loads and unloads leave -/

/-- Every control core is halted. -/
def State.haltCores (s : State) : State := (List.range 128).foldl (fun s t => s.work t fun w => w.haltCore) s

/-- Control-core memories, micro-program stores and the scale table are cleared, and no model is resident (10 R348, R349). -/
def State.clearModel (s : State) : State :=
  let s := (s.tiles.keys).foldl (fun s t => s.modTile t fun x => { x with core := { x.core with imem := [], dmem := [], imemErr := [], dmemErr := [] } }) s
  let s := (s.units.keys).foldl (fun s u => s.modUnit u fun x => { x with store := [], crc := 0, crcValid := false, crcDue := false, loadAddr := 0 }) s
  let l := s.laurel
  { s with model := none, laurel := { l with decl := none, slots := [], rateNum := 0, rateDen := 1, serving := 0 } }

/-- Bytes of a die range become undefined (10 R349). -/
def State.blurMem (s : State) (a n : Nat) : State :=
  match placeOf a with
  | .tier k off =>
    let t := s.tier k
    let g := t.nextFill
    s.setTier k { (t.put off ((List.range (min n (tierBytes k - off))).map fun i => Config.undefByte g (off + i))) with nextFill := g + 1 }
  | _ => s

/-- A load fails: memory that its sections may have written is undefined. -/
def State.imageFailed (s : State) (img : List Byte) : State :=
  let s := ((sectsOf img).filter fun x => x.ty == 4 || x.ty == 5).foldl (fun s x => s.blurMem x.dest x.len) s
  s.haltCores.clearModel

/-- The tiles whose cores a load starts. -/
def startTiles (img : List Byte) : List Nat := ((sectsOf img).filter (·.ty == 1)).flatMap fun x => targets x.target 128

/-- Checks after the sections: digest, signature, each STORE_CRC. -/
def State.imageChecks (s : State) (rule : Bool × List Byte) (img : List Byte) : Nat × Nat × Bool :=
  let dig := sha3_512 ((img.take (imageLimit img)).drop 0x80)
  let sig := signature rule img
  if (img.drop 0x40).take 64 != dig then (5, 0, false)
  else if sig.1 then (6, 0, false)
  else
    match (sectsOf img).find? fun x => x.ty == 3 && (targets x.target 512).any fun u => (s.unit u).crc != x.aux with
    | some x => (7, x.idx, false)
    | none => (0, 0, sig.2)

/-- The whole load at its boundary, once the image has been read: reason (0: resident), section, state. -/
def State.loadImage (s : State) (rule : Bool × List Byte) (img : List Byte) (len : Nat) : Nat × Nat × State :=
  let s := s.haltCores
  let h := headerReason img len
  if h != 0 then (h, 0, s.clearModel)
  else
    match (sectsOf img).find? fun x => x.bad (imageLimit img) with
    | some x => (4, x.idx, s.clearModel)
    | none =>
      let r := s.applySects img (sectsOf img)
      if r.1 != 0 then (r.1, r.2.1, r.2.2.imageFailed img)
      else
        let c := r.2.2.imageChecks rule img
        if c.1 != 0 then
          let s := r.2.2.imageFailed img
          (c.1, c.2.1, if c.1 = 6 then { s with sigRefused := inc32 s.sigRefused } else s)
        else
          let s := (startTiles img).foldl (fun s t => s.work t fun w => w.runCore) r.2.2
          let l := s.laurel
          let s := { s with
            model := some { id := fieldAt img 0x18 8, header := img.take 0x80, signed := c.2.2 }
            laurel := { l with serving := 1, rateNum := 0, rateDen := 1 } }
          (0, 0, s.bothPfs 6)

end Sys2Proof.Machine
end

