-- ==== Sys2Proof/Machine/HostOps.lean ====
section
/-!
DEFINITION. Operations of the host ports that the commands share: function blocks, queue entries, doorbells, mailboxes, assignment,
stewardship, completion records and messages, partition resets (10 R324 to R346, R350 to R353).
-/

namespace Sys2Proof.Machine

/-! ## Reach -/

/-- Is function `f` of port `p` there? -/
def State.fnUp (s : State) (p : PortId) (f : Nat) : Bool := s.isReady && (s.port p).up && decide (f ≤ min 15 (s.port p).numVfs)

/-- Can a host reach the memory of function `f` of port `p` now: the function is there and in D0, and what the host has written before has been performed (09 R312)? -/
def State.reach (s : State) (p : PortId) (f : Nat) : Bool := s.fnUp p f && !(s.fn p f).d3hot && !s.portWrites p

/-- Is an access of `n` bytes 4 or 8 bytes and naturally aligned (10 R320)? -/
def aligned (off n : Nat) : Bool := (n == 4 || n == 8) && off % n == 0

/-- The pool queue of a function's local number (10 R325). -/
def State.poolQueue (s : State) (p : PortId) (f q : Nat) : Option Nat :=
  let x := s.fn p f
  if q < x.qCount then some (x.qBase + q) else none

/-! ## Queue entries (10 R327) -/

/-- A 32-bit half of a queue entry. -/
def QPair.reg (x : QPair) (o : Nat) : Nat :=
  match o with
  | 0x00 => bits x.sqBase 0 32
  | 0x04 => bits x.sqBase 32 32
  | 0x08 => bits x.cqBase 0 32
  | 0x0C => bits x.cqBase 32 32
  | 0x10 => x.sqLog + 16 * x.cqLog + 256 * b2n x.enable + 512 * b2n x.irqEn + 1024 * x.vec + 2 ^ 18 * x.holdoff
  | 0x14 => x.sqHead + 65536 * x.cqTail
  | 0x18 => x.cqSeq + 65536 * b2n x.phase + 2 ^ 17 * x.state + 2 ^ 24 * x.error
  | 0x1C => x.inFlight % 65536
  | _ => 0

/-- Queue `q` enters the error state (10 R329). -/
def State.queueError (s : State) (q code : Nat) : State :=
  let s := s.modQueue q fun x => { x with state := 3, error := code }
  match s.holderOf q with
  | some (p, f, _) => s.fnEvent p f 4
  | none => s

/-- A disabling queue with nothing in flight is disabled (10 R328). -/
def QPair.settle (x : QPair) : QPair := if x.state = 2 && x.inFlight = 0 then { x with state := 0 } else x

/-- ENABLE = 1 (10 R328). -/
def State.queueEnable (s : State) (q : Nat) : State :=
  let x := s.queue q
  if x.state != 0 then s
  else if 4 ≤ x.sqLog && x.sqLog ≤ 15 && 4 ≤ x.cqLog && x.cqLog ≤ 15 then
    s.setQueue q { x with
      enable := true, state := 1, error := 0, sqHead := 0, cqTail := 0, cqSeq := 0, phase := true
      tail := 0, cqHead := 0, used := 0, fetching := 0, latched := none }
  else (s.setQueue q { x with enable := true }).queueError q 1

/-- ENABLE = 0. -/
def State.queueDisable (s : State) (q : Nat) : State :=
  s.modQueue q fun x => if x.state = 1 || x.state = 3 then ({ x with enable := false, state := 2, latched := none } : QPair).settle else x

/-- A 4-byte write of a queue entry. -/
def State.queueWrite (s : State) (q o v : Nat) : State :=
  let x := s.queue q
  if x.state != 0 then (if o = 0x10 && !v.testBit 8 then s.queueDisable q else s)
  else
    match o with
    | 0x00 => s.setQueue q { x with sqBase := setBits x.sqBase 0 32 v }
    | 0x04 => s.setQueue q { x with sqBase := setBits x.sqBase 32 32 v }
    | 0x08 => s.setQueue q { x with cqBase := setBits x.cqBase 0 32 v }
    | 0x0C => s.setQueue q { x with cqBase := setBits x.cqBase 32 32 v }
    | 0x10 =>
      let s := s.setQueue q { x with sqLog := bits v 0 4, cqLog := bits v 4 4, irqEn := v.testBit 9, vec := bits v 10 8, holdoff := bits v 18 8 }
      if v.testBit 8 then s.queueEnable q else s
    | _ => s

/-! ## Doorbells (10 R329, 04 R140) -/

/-- A tail that is acted on. -/
def State.tailAt (s : State) (q v : Nat) : State :=
  if 2 ^ (s.queue q).sqLog ≤ v then s.queueError q 2 else s.modQueue q fun x => { x with tail := v }

/-- SQ_TAIL: ignored in states 0 and 2; latched during a drain. -/
def State.sqTail (s : State) (q v : Nat) : State :=
  let x := s.queue q
  if x.state = 0 || x.state = 2 then s
  else if x.state = 3 then s
  else if s.drain.active then s.setQueue q { x with latched := some v }
  else s.tailAt q v

/-- CQ_HEAD: the record slots up to it are freed. -/
def State.cqHead (s : State) (q v : Nat) : State :=
  let x := s.queue q
  if x.state = 0 || x.state = 2 then s
  else
    let size := 2 ^ x.cqLog
    let freed := (v + size - x.cqHead) % size
    -- slots written and not freed: what is reserved or written less what is in flight
    if size ≤ v || x.used - x.inFlight < freed then s.queueError q 2
    else s.setQueue q { x with cqHead := v, used := x.used - freed }

/-- The boundary is released: latched doorbells are acted on (04 R140). -/
def State.unlatch (s : State) : State :=
  s.queues.keys.foldl (fun s q =>
    match (s.queue q).latched with
    | some v => (s.modQueue q fun x => { x with latched := none }).tailAt q v
    | none => s) s

/-! ## Assignment (10 R326) -/

/-- Result of an assignment, in the order of R326's list. -/
def State.assignResult (s : State) (p : PortId) (tp : PortId) (tf base count part : Nat) : Nat :=
  let fns := [false, true].flatMap fun p => (List.range 16).map fun f => (p, f)
  if p != s.stew.port then 1
  else if count != 0 && fns.any (fun x =>
      let f := s.fn x.1 x.2
      x != (tp, tf) && decide (0 < f.qCount) && decide (f.qBase < base + count) && decide (base < f.qBase + f.qCount)) then 2
  else if (List.range (s.fn tp tf).qCount).any (fun i => (s.queue ((s.fn tp tf).qBase + i)).state != 0) then 3
  else if s.ownerOf part != some tp then 4
  else if 8192 < base + count || 1024 < count || min 15 (s.port tp).numVfs < tf then 5
  else 0

/-- A write of the assignment register by PF `p`. -/
def State.assign (s : State) (p : PortId) (v : Nat) : State :=
  let tf := bits v 0 4
  let tp := v.testBit 4
  let base := bits v 5 13
  let count := bits v 18 11
  let part := bits v 29 4
  let r := s.assignResult p tp tf base count part
  let s := s.modFn p 0 fun x => { x with qaResult := r }
  if r = 0 then
    s.modFn tp tf fun x => if count = 0 then { x with qBase := 0, qCount := 0, qPart := 0 } else { x with qBase := base, qCount := count, qPart := part }
  else s

/-! ## Stewardship (10 R344 to R346) -/

/-- The steward changes: counted, reported to both PFs and the log. Ports are numbered as OD 0x4100.01 numbers them;
the entries of stewardship lie in the island (13 R523), whose source the event bears. -/
def State.passSteward (s : State) (to_ : PortId) (means : Nat) : State :=
  let old := s.stew.port
  let s := { s with stew := { port := to_, changes := inc32 s.stew.changes } }
  let s := (s.modPort false fun x => { x with wasReset := false }).modPort true fun x => { x with wasReset := false }
  (s.bothPfs 1).post { code := 0x50, source := 0x90, args := [1 + b2n old, 1 + b2n to_, means] }

/-- RELEASE by the PF of port `p`. -/
def State.release (s : State) (p : PortId) : State :=
  let note (s : State) (r : Nat) : State := s.modFn p 0 fun x => { x with stewResult := r }
  if p != s.stew.port then note s 1
  else if (s.port !p).up then note (s.passSteward (!p) 1) 0
  else note s 2

/-- CLAIM by the PF of port `p`. -/
def State.claim (s : State) (p : PortId) : State :=
  let note (s : State) (r : Nat) : State := s.modFn p 0 fun x => { x with stewResult := r }
  if p != s.stew.port && !(s.port s.stew.port).up then note (s.passSteward p 2) 0 else note s 3

/-! ## Mailbox (10 R350) -/

/-- A write of the mailbox's request register. -/
def State.mailbox (s : State) (p : PortId) (f : FnId) (v : Nat) : State :=
  let op := bits v 0 2
  if op = 0 || op = 3 then s
  else
    let m := (s.fn p f.val).mbox
    if m.busy then s.modFn p f.val fun x => { x with mbox := { m with overrun := true } }
    else
      let req : DictReq := .mailbox p f true (op == 2) (bits v 8 16) (bits v 24 8) (m.data.read 0 (min 256 (bits v 32 9)))
      let s := s.modFn p f.val fun x => { x with mbox := { m with busy := true } }
      { s with dictQ := s.dictQ ++ [req] }

/-- The functions that `hit` picks have been reset: what they have asked of the dictionary is still served, and not answered (10 R352, R353). -/
def DictReq.orphan (hit : PortId → Nat → Bool) (q : DictReq) : DictReq :=
  match q with
  | .mailbox p f live w i sub d => .mailbox p f (live && !hit p f.val) w i sub d
  | q => q

def State.orphan (s : State) (hit : PortId → Nat → Bool) : State :=
  { s with dictQ := s.dictQ.map (DictReq.orphan hit), stored := s.stored.map fun w => { w with req := w.req.orphan hit } }

/-! ## Fields of a descriptor (10 R331, R332) -/

def HostOp.irq (o : HostOp) : Bool := (fieldAt o.desc 1 1).testBit 0
def HostOp.ordered (o : HostOp) : Bool := (fieldAt o.desc 1 1).testBit 1
/-- DRAIN, IMAGE_LOAD, IMAGE_UNLOAD. -/
def HostOp.stewardOnly (o : HostOp) : Bool := decide (5 ≤ o.opcode) && decide (o.opcode ≤ 7)

/-! ## The function block (10 R324) -/

/-- A 32-bit half of a function block: value, and the state after the read. -/
def State.blockRead32 (s : State) (p : PortId) (f : FnId) (off : Nat) : Nat × State :=
  let x := s.fn p f.val
  let pf := f.val == 0
  if off = 0x0408 then
    (b2n x.mbox.busy + 2 * b2n x.mbox.overrun + 256 * x.mbox.status + 65536 * x.mbox.rlength,
     s.setFn p f.val { x with mbox := { x.mbox with overrun := false } })
  else if 0x0500 ≤ off ∧ off < 0x0600 then (leNat (x.mbox.data.read (off - 0x0500) 4), s)
  else if 0x4000 ≤ off ∧ off < (if pf then 0x5000 else 0x4200) then
    (leNat ((List.range 4).map fun i => SMap.get 0#8 x.msix (off - 0x4000 + i) ^^^ msixReset (off - 0x4000 + i)), s)
  else if 0x6000 ≤ off ∧ off < 0x6020 then (leNat (x.pba.read (off - 0x6000) 4), s)
  else if 0x8000 ≤ off then
    (match s.poolQueue p f.val ((off - 0x8000) / 32) with
     | some q => ((s.queue q).reg (off % 32), s)
     | none => (0, s))
  else
    (match off with
     | 0x0000 => f.val + 16 * b2n p + 32 * b2n (pf && p == s.stew.port) + 64 * x.qPart + 1024 * x.qCount
     | 0x0008 => x.event
     | 0x0010 => x.eventEn
     | 0x001C => if pf then 16 * x.base else 0
     | 0x0100 => if pf then 256 * x.stewResult else 0
     | 0x0110 => if pf then x.qaResult else 0
     | 0x0120 => if pf then b2n (!s.resetting.isEmpty) + 2 * x.prResult else 0
     | _ => 0, s)

/-- Pending messages of vectors that are no longer masked are sent (10 R339). -/
def State.flushMsix (s : State) (p : PortId) (f : Nat) : State :=
  if !(s.fn p f).msixEn then s
  else (List.range (if f = 0 then 256 else 32)).foldl (fun s v =>
    let x := s.fn p f
    if (SMap.get 0#8 x.pba (v / 8)).toNat.testBit (v % 8) && !x.masked v then
      let s := s.setFn p f { x with pba := SMap.mod 0#8 x.pba (v / 8) fun b => b ^^^ BitVec.ofNat 8 (2 ^ (v % 8)) }
      s.emit (.msix p f v)
    else s) s

/-- Bytes of the MSI-X table are written. -/
def Fn.msixWrite (x : Fn) (a v : Nat) : Fn :=
  { x with msix := (List.range 4).foldl (fun m i => SMap.set 0#8 m (a + i) (BitVec.ofNat 8 (v / 256 ^ i) ^^^ msixReset (a + i))) x.msix }

/-- DIR of a copy: from the device to the host (10 R333). -/
def HostOp.toHost (o : HostOp) : Bool := (fieldAt o.desc 0x1C 1).testBit 0

/-- Bytes of a copy that nothing has been asked for yet. A tensor copy from the host asks by packed grains. -/
def HostOp.unsent (o : HostOp) : Nat :=
  if o.opcode = 3 && !o.toHost then ((o.pieces.filter fun p => decide (o.sent ≤ p.off)).map (·.len)).foldl (· + ·) 0 else o.total - o.sent

/-- A copy asks for nothing more and ends with a status once what it has asked for is done (10 R342). -/
def HostOp.cut (o : HostOp) (status : Nat) : HostOp :=
  let o := { o with status := if o.status = 0 then status else o.status, left := o.left - o.unsent, total := o.sent, pieces := o.pieces.filter fun p => decide (p.off < o.sent) }
  if o.left = 0 then o.finish status 0 0 else o

/-- A partition reset's first steps: latched doorbells go, kernels launched from its queues and its copies stop, its Privet commands are discarded, its
sequences are marked for the next boundary with their buffers, a step with one of them aborts (10 R342, 11 R385, R388). -/
def State.stopPart (s : State) (part : Nat) (own : HostOp → Bool) : State :=
  let s := (s.queuesOf part).foldl (fun s q => s.modQueue q fun x => { x with latched := none, tail := x.sqHead }) s
  let mine := (s.ops.filter own).map (·.id)
  let ls := (s.launches.filter fun l => (match l.by_ with | .hostOp o => mine.contains o | .laurel => false)).map (·.id)
  let s := ls.foldl State.abortLaunch s
  let halt (o : HostOp) : HostOp :=
    if own o && o.stage == .running && (o.opcode == 2 || o.opcode == 3) then o.cut 8 else o
  let s := { s with ops := s.ops.map fun o => s.stamp o (halt o) }
  let s := s.discardUnits (· == part)
  let hit := s.liveSeqs.filter fun q => (s.seq q).part == part
  let s := if s.stepParts.contains part then s.stepAbort 4 else s
  let s := hit.foldl (fun s q => s.modSeq q fun x => { x with removed := true }) s
  let l := s.laurel
  { s with laurel := { l with
      recv := SMap.set [] l.recv part [], batches := SMap.set [] l.batches part [], wantBoundary := l.wantBoundary || !hit.isEmpty } }

/-- A write of PR_PART by the PF of port `p` (10 R342). -/
def State.resetPart (s : State) (p : PortId) (part : Nat) : State :=
  let note (s : State) (r : Nat) : State := s.modFn p 0 fun x => { x with prResult := r }
  if s.ownerOf part != some p && p != s.stew.port then note s 1
  else if !s.resetting.isEmpty then note s 2
  else
    let s := note s 0
    ({ s with resetting := s.resetting ++ [(part, 16 * b2n p)] }).stopPart part fun o => o.part == part

/-- A 4-byte write of a function block; `whole` is the 64-bit value for a register that takes effect as one. -/
def State.blockWrite32 (s : State) (p : PortId) (f : FnId) (off v whole : Nat) : State :=
  let x := s.fn p f.val
  let pf := f.val == 0
  if 0x0500 ≤ off ∧ off < 0x0600 then s.setFn p f.val { x with mbox := { x.mbox with data := x.mbox.data.write (off - 0x0500) (leBytes 4 v) } }
  else if 0x1000 ≤ off ∧ off < 0x3000 then
    (match s.poolQueue p f.val ((off - 0x1000) / 8) with
     | some q => if off % 8 = 0 then s.sqTail q (v % 65536) else s.cqHead q (v % 65536)
     | none => s)
  else if 0x4000 ≤ off ∧ off < (if pf then 0x5000 else 0x4200) then (s.setFn p f.val (x.msixWrite (off - 0x4000) v)).flushMsix p f.val
  else if 0x8000 ≤ off then
    (match s.poolQueue p f.val ((off - 0x8000) / 32) with
     | some q => s.queueWrite q (off % 32) v
     | none => s)
  else
    (match off with
    | 0x0008 => s.setFn p f.val { x with event := x.event - (x.event &&& (v % 128)) }
    | 0x0010 => s.setFn p f.val { x with eventEn := v % 128 }
    | 0x001C => if pf then s.setFn p 0 { x with base := v / 16 } else s
    | 0x0100 => if pf then (match v % 4 with | 1 => s.release p | 2 => s.claim p | _ => s) else s
    | 0x0108 => if pf then s.assign p whole else s
    | 0x0118 => if pf then s.resetPart p (v % 16) else s
    | 0x0400 => s.mailbox p f whole
    | _ => s)

/-- A read of 4 or 8 bytes of a function block. -/
def State.blockRead (s : State) (p : PortId) (f : FnId) (off n : Nat) : Nat × State :=
  let a := s.blockRead32 p f off
  if n = 8 then
    let b := a.2.blockRead32 p f (off + 4)
    (a.1 + 2 ^ 32 * b.1, b.2)
  else a

/-- A write of 4 or 8 bytes of a function block. -/
def State.blockWrite (s : State) (p : PortId) (f : FnId) (off n v : Nat) : State :=
  let s := s.blockWrite32 p f off (v % 2 ^ 32) (if n = 8 then v else v % 2 ^ 32)
  if n = 8 then s.blockWrite32 p f (off + 4) (v / 2 ^ 32) 0 else s

/-! ## Operations in flight -/

/-- Does a fetched operation ask its port's queue selector: queue order, ORDERED (09 R293), a drain and, after its release, the operations that waited, in fetch order
(04 R141), steward-only operations one at a time (10 R345)? -/
def State.asks (s : State) (o : HostOp) : Bool :=
  o.stage == .fetched && s.isReady && (s.port o.port).up && !(s.resetting.any (·.1 == o.part)) &&
  !(s.ops.any fun x => decide (x.id < o.id) && x.queue == o.queue && (x.stage == .fetched || (o.ordered && x.stage != .done))) &&
  (!s.drain.active || o.opcode == 0) &&
  !(s.ops.any fun x => x.port == o.port && x.waited && x.stage == .fetched && decide (x.id < o.id)) &&
  (!(o.stewardOnly && o.steward) || !(s.ops.any fun x => decide (x.id < o.id) && x.stewardOnly && x.steward && x.stage != .done))

/-- Queues of a port whose first operation asks. -/
def State.asking (s : State) (p : PortId) : List Nat := ((s.ops.filter fun o => o.port == p && s.asks o).map (·.queue)).eraseDups

/-- Is queue `x` granted before queue `y` by a selector: by round robin from the queue after the last one granted, or, for a starvation grant, by the longest wait, the
lower number first (10 R330, 03 R104)? -/
def Sel.before (l : Sel) (starve : Bool) (x y : Nat) : Bool :=
  if starve then
    let wx := SMap.get 0 l.waits x
    let wy := SMap.get 0 l.waits y
    decide (wy < wx) || (wx == wy && decide (x < y))
  else decide ((x + 8191 - l.last) % 8192 < (y + 8191 - l.last) % 8192)

/-- Is the next grant of a port's queue selector a starvation grant? -/
def State.selStarves (s : State) (p : PortId) : Bool := decide (s.odNow 0x5080 5 ≤ (s.port p).sel.since + 1)

/-- May a fetched operation begin now: does it ask, and does the selector grant its queue? -/
def State.mayBegin (s : State) (o : HostOp) : Bool :=
  s.asks o && (s.asking o.port).all fun q => q == o.queue || (s.port o.port).sel.before (s.selStarves o.port) o.queue q

/-- The selector's grant of operation `o`, in what the operation has left of the state. -/
def State.selected (s : State) (o : HostOp) (s' : State) : State :=
  let l := (s.port o.port).sel
  let waits := ((s.asking o.port).filter (· != o.queue)).foldl (fun m q => SMap.set 0 m q (SMap.get 0 l.waits q + 1)) []
  s'.modPort o.port fun x => { x with sel := { last := o.queue, since := if s.selStarves o.port then 0 else l.since + 1, waits := waits } }

/-- The operation of number `id`, when it may begin. -/
def State.starts (s : State) (id : Nat) (code : Nat) : Option HostOp := (s.op? id).filter fun o => o.opcode == code && s.mayBegin o

/-- An operation of opcode `code` that has begun in `s'` has been granted by its port's queue selector. -/
def State.began (s : State) (id code : Nat) (s' : State) : State := match s.starts id code with | some o => s.selected o s' | none => s'

/-- A completion record (10 R335). -/
def HostOp.record (o : HostOp) (x : QPair) (localQ : Nat) : List Byte :=
  (o.desc.drop 4).take 4 ++ leBytes 2 x.cqSeq ++ leBytes 2 x.sqHead
    ++ leBytes 1 o.status ++ leBytes 1 o.fault ++ leBytes 2 (b2n o.zeroLen + 2 * b2n o.unchecked + 4 * b2n o.poisoned) ++ leBytes 4 o.detail
    ++ leBytes 8 o.time ++ leBytes 4 o.bytes ++ leBytes 4 (localQ + 2 ^ 31 * b2n x.phase)

/-- The message of a record (10 R339): one waits while HOLDOFF runs. -/
def State.message (s : State) (o : HostOp) : State :=
  let x := s.queue o.queue
  if !(o.irq && x.irqEn && x.vec != 0) then s
  else
    match x.lastMsg with
    | some t => if s.ts - t < 1000 * x.holdoff then s.setQueue o.queue { x with msgWaits := true }
                else (s.setQueue o.queue { x with lastMsg := some s.ts, msgWaits := false }).msix o.port o.fn x.vec
    | none => (s.setQueue o.queue { x with lastMsg := some s.ts, msgWaits := false }).msix o.port o.fn x.vec

/-- An ended operation's record is written, and its place is free (10 R335 to R339). -/
def State.writeRecord (s : State) (o : HostOp) : State :=
  let x := s.queue o.queue
  let s := { s with ops := s.ops.filter (·.id != o.id) }
  let q := o.queue - (s.fn o.port o.fn).qBase
  let s := s.emit (.hostWrite o.port ((x.cqBase / 32 * 32 + 32 * x.cqTail) % 2 ^ 64) (o.record x q) false)
  let wrap := x.cqTail + 1 == 2 ^ x.cqLog
  let y : QPair := { x with
    cqTail := if wrap then 0 else x.cqTail + 1, phase := if wrap then !x.phase else x.phase
    cqSeq := (x.cqSeq + 1) % 65536, inFlight := x.inFlight - 1 }
  (s.setQueue o.queue y.settle).message o

/-- A queue returns to state 0, its base, size and vector fields kept (10 R342). -/
def QPair.stopped (x : QPair) : QPair :=
  { x with state := 0, enable := false, inFlight := 0, used := 0, fetching := 0, latched := none, tail := 0, cqHead := 0, msgWaits := false }

/-- The boundary is released: launchers resume, its batches may be sent, latched doorbells are acted on (04 R140, R144; 11 R371); then the DRAINs that asked for it complete (10 R334). -/
def State.releaseBoundary (s : State) : State :=
  s.drain.ops.foldl (fun s id => s.modOp id fun o => if o.opcode = 5 && o.stage == .running then o.finish 0 0 0 else o)
    (({ s with
        ops := s.ops.map fun o => if o.stage == .fetched && o.opcode != 0 then { o with waited := true } else o
        drain := { restarts := s.drain.restarts }
        laurel := { s.laurel with batches := s.laurel.batches.map fun x => (x.1, x.2.map fun b =>
          { b with release := some (b.release.getD (s.fabricTs 0x89)) }) } } : State)).unlatch

/-- The drain that operation `id` asked for is given up; the last one releases the boundary. -/
def State.dropDrain (s : State) (id : Nat) : State :=
  let d := s.drain
  if d.ops.contains id then
    let rest := d.ops.filter (· != id)
    if rest.isEmpty && !s.laurel.step.running && !s.laurel.wantBoundary && !d.heldMarch && (d.quiet || !d.reached) then
      ({ s with drain := { d with ops := [] } } : State).releaseBoundary
    else { s with drain := { d with ops := rest, heldImage := false } }
  else s

end Sys2Proof.Machine
end

