-- ==== Sys2Proof/Machine/Registers.lean ====
section
/-!
DEFINITION. Meanings of the register accesses: writes, and reads, of the die control window through PF BAR0 or from the die, of
function blocks, and of configuration space as far as the manual names it (00 R8; 07 R207; 10 R318, R319, R320, R322, R324, R343).
-/

namespace Sys2Proof.Machine

/-- A register write of an agent of the die at its home: 32-bit halves in turn, an aligned pair as one 64-bit write. -/
def State.dieWrite (s : State) (off : Nat) (d : List Byte) : State :=
  let n := d.length
  if n = 8 && off % 8 = 0 then s.windowWrite .die off 8 (leNat d)
  else
    (List.range ((off + n) / 4 - cdiv off 4)).foldl (fun s i =>
      let a := 4 * (cdiv off 4 + i)
      s.windowWrite .die a 4 (fieldAt d (a - off) 4)) s

/-- Does a die write at a control offset belong to a row of its own: command grains, buffers, Laurel's area? -/
def ownRow (off n : Nat) : Bool :=
  decide (laurelBase ≤ off) || (decide (0x4000000 ≤ off) && decide (off < 0x4020000) && off % 0x100 == 0x40 && n == 64) ||
  (decide (0x4100000 ≤ off) && decide (off < 0x4180000)) || (decide (0x5000000 ≤ off) && decide (off < 0x7000000))

/-- The register write of access `id`. -/
def State.dieRegister (s : State) (id : Nat) : State :=
  match s.ready id (· == .write) with
  | none => s
  | some q =>
    match placeOf q.dest.addr with
    | .control off =>
      if ownRow off q.data.bytes.length then s
      else
        -- a write at COMMAND that is no whole grain is discarded and counted (08 R246)
        let s := (match unitRegAt q.dest.addr with
          | some (u, o) => if 0x40 ≤ o ∧ o < 0x80 then s.modUnit u fun x => x.bump 0xF8 1 else s.dieWrite off q.data.bytes
          | none => s.dieWrite off q.data.bytes)
        s.respond id {} 0 false none
    | _ => s

/-- The operations that `mine` picks end with their functions' reset: a load fails (10 R349), an unload that has begun runs to its end with no record, a
drain is given up, the others are gone (10 R352, R353). -/
def State.endOps (s : State) (mine : HostOp → Bool) : State :=
  let hit := s.ops.filter mine
  let s := (hit.filter fun o => o.opcode == 6 && o.stage == .running).foldl (fun s o => s.imageFailed o.image) s
  let stays (o : HostOp) : Bool := o.opcode == 7 && o.stage == .running
  let s := (hit.filter fun o => !stays o).foldl (fun s o => s.dropDrain o.id) s
  let f (o : HostOp) : HostOp := if mine o then { o with silent := true } else o
  { s with ops := (s.ops.filter fun o => !mine o || stays o).map f }

/-- Kernels launched by the operations that `mine` picks end with ABORTED. -/
def State.endLaunches (s : State) (mine : HostOp → Bool) : State :=
  let ids := (s.ops.filter mine).map (·.id)
  let ls := (s.launches.filter fun l => (match l.by_ with | .hostOp o => ids.contains o | .laurel => false)).map (·.id)
  ls.foldl State.abortLaunch s

/-- A function-level reset's part for one function (10 R353): its queues stop and return to reset values, its kernels and copies end, its block resets. -/
def State.resetFn (s : State) (p : PortId) (f : Nat) : State :=
  let x := s.fn p f
  let qs := (List.range x.qCount).map (x.qBase + ·)
  let mine (o : HostOp) : Bool := o.port == p && o.fn == f
  let s := (s.endLaunches mine).endOps mine
  let s := { s with hostReads := s.hostReads.filter fun r => !(r.port == p && r.fn == f) }
  let s := qs.foldl (fun s q => s.setQueue q {}) s
  (s.setFn p f { qBase := x.qBase, qCount := x.qCount, qPart := x.qPart }).orphan fun y g => y == p && g == f

/-- NumVFs and VF Enable make VFs exist (10 R319); those that cease to exist are reset. -/
def State.setVfs (s : State) (p : PortId) (enable : Bool) (v : Nat) : State :=
  let n := if enable then min v (min 15 ((s.port p).trained.getD 3 15)) else 0
  let gone := ((List.range 16).filter fun f => decide (n < f) && decide (f ≤ (s.port p).numVfs))
  (gone.foldl (fun s f => s.resetFn p f) s).modPort p fun x => { x with vfEnable := enable, vfNum := v, numVfs := n }

/-- AER notes an uncorrectable error of a function: 12 poisoned, 14 completion timeout, 15 Completer Abort, 20 Unsupported Request (10 R316; PRESUMED, PCIe's bits,
log 86). -/
def State.aer (s : State) (p : PortId) (f bit : Nat) : State := s.modFn p f fun x => { x with aer := x.aer ||| 2 ^ bit }

/-- A memory request to a function in D3hot is unsupported (PRESUMED, PCIe's, log 86); one that waits for earlier writes has no effect yet. -/
def State.unsupported (s : State) (p : PortId) (f : Nat) (read : Bool) : State :=
  if !(s.fnUp p f && (s.fn p f).d3hot) then s
  else if read then (s.aer p f 20).emit (.completion p 2 [] false) else s.aer p f 20

/-- A read of function `f` completes with Completer Abort (10 R320, R321). -/
def State.abortRead (s : State) (p : PortId) (f : Nat) : State := (s.aer p f 15).emit (.completion p 1 [] false)

/-- AER's errors that the model notes. -/
def aerBits : Nat := 2 ^ 12 + 2 ^ 14 + 2 ^ 15 + 2 ^ 20

/-- A half of a 64-bit memory BAR of 2^`log` bytes: the base above its size, and in the low half the type, 4, or 12 where it is prefetchable (10 R319). -/
def barWord (log type : Nat) (high : Bool) (v : Nat) : Nat :=
  let b := v / 2 ^ log * 2 ^ log
  if high then b / 2 ^ 32 else b % 2 ^ 32 + type

/-- A word of a function's configuration space (10 R316 to R319): identity at 0x00 and 0x08, in a PF the BARs from 0x10 on, then the capabilities for power management at 0x40, MSI-X at 0x50, PCI Express
at 0x70, AER at 0x100 and, in a PF, SR-IOV at 0x140. Their layouts are PCIe's, their places the model's (PRESUMED, log 86). -/
def State.configWord (s : State) (p : PortId) (f off : Nat) : Option Nat :=
  let x := s.fn p f
  let y := s.port p
  let bir := if f = 0 then 2 else 0
  let pf (v : Nat) : Option Nat := if f = 0 then some v else none
  match off with
  | 0x00 => some (0x1F5B + 2 ^ 16 * (if f = 0 then 0x8812 else 0x8813))
  | 0x08 => some (0xB0 + 2 ^ 8 * 0x120000)
  | 0x10 => pf (barWord 28 4 false x.bar0)
  | 0x14 => pf (barWord 28 4 true x.bar0)
  | 0x18 => pf (barWord 16 4 false x.bar2)
  | 0x1C => pf (barWord 16 4 true x.bar2)
  | 0x20 => pf (barWord 36 12 false x.bar4)
  | 0x24 => pf (barWord 36 12 true x.bar4)
  | 0x40 => some (0x01 + 2 ^ 8 * 0x50 + 2 ^ 16 * 3)
  | 0x44 => some ((if x.d3hot then 3 else 0) + 8)
  | 0x50 => some (0x11 + 2 ^ 8 * 0x70 + 2 ^ 16 * (if f = 0 then 255 else 31) + 2 ^ 30 * b2n x.msixMask + 2 ^ 31 * b2n x.msixEn)
  | 0x54 => some (0x4000 + bir)
  | 0x58 => some (0x6000 + bir)
  | 0x70 => some (0x10 + 2 ^ 16 * 2)
  | 0x74 => some (2 + 2 ^ 5 + 2 ^ 28)
  | 0x78 => some (2 ^ 5 * x.mps + 2 ^ 12 * x.mrrs)
  | 0x7C => some (6 + 2 ^ 4 * 8 + 2 ^ 10 * 2)
  | 0x80 => some (2 * b2n x.aspm + 2 ^ 16 * y.rate + 2 ^ 20 * y.width)
  | 0x94 => some (0xF + 2 ^ 4 + 2 ^ 16 + 2 ^ 17)
  | 0x98 => some x.devCtl2
  | 0x100 => some (0x0001 + 2 ^ 16 * 2 + 2 ^ 20 * (if f = 0 then 0x140 else 0))
  | 0x104 => some x.aer
  | 0x108 => some x.aerMask
  | 0x10C => some x.aerSev
  | 0x110 => some 0
  | 0x114 => some x.aerCorMask
  | 0x118 => some (2 ^ 5 + 2 ^ 6 * b2n x.ecrcGen + 2 ^ 7 + 2 ^ 8 * b2n x.ecrcChk)
  | 0x140 => pf (0x0010 + 2 ^ 16)
  | 0x148 => pf (b2n y.vfEnable)
  | 0x14C => pf ((y.trained.getD 3 15) * (1 + 2 ^ 16))
  | 0x150 => pf y.vfNum
  -- First VF Offset 1, VF Stride 1
  | 0x154 => pf (1 + 2 ^ 16)
  | 0x158 => pf (2 ^ 16 * 0x8813)
  | 0x164 => pf (barWord 16 4 false x.vfBar0)
  | 0x168 => pf (barWord 16 4 true x.vfBar0)
  | _ => none

/-- A write of a word of a function's configuration space; every other bit is as it was. NumVFs is writable while VF Enable is 0. -/
def State.configWrite (s : State) (p : PortId) (f off v : Nat) : State :=
  let x := s.fn p f
  let y := s.port p
  match off with
  | 0x44 => if v % 4 = 0 then s.setFn p f { x with d3hot := false } else if v % 4 = 3 then s.setFn p f { x with d3hot := true } else s
  | 0x50 => (s.setFn p f { x with msixMask := v.testBit 30, msixEn := v.testBit 31 }).flushMsix p f
  | 0x78 => s.setFn p f { x with mps := min 2 (bits v 5 3), mrrs := min 5 (bits v 12 3) }
  | 0x80 => s.setFn p f { x with aspm := v.testBit 1 }
  | 0x10 => if f = 0 then s.setFn p f { x with bar0 := setBits x.bar0 0 32 v } else s
  | 0x14 => if f = 0 then s.setFn p f { x with bar0 := setBits x.bar0 32 32 v } else s
  | 0x18 => if f = 0 then s.setFn p f { x with bar2 := setBits x.bar2 0 32 v } else s
  | 0x1C => if f = 0 then s.setFn p f { x with bar2 := setBits x.bar2 32 32 v } else s
  | 0x20 => if f = 0 then s.setFn p f { x with bar4 := setBits x.bar4 0 32 v } else s
  | 0x24 => if f = 0 then s.setFn p f { x with bar4 := setBits x.bar4 32 32 v } else s
  | 0x98 => s.setFn p f { x with devCtl2 := v % 32 + 4096 * bits v 12 1 }
  | 0x104 => s.setFn p f { x with aer := x.aer - (x.aer &&& v) }
  | 0x108 => s.setFn p f { x with aerMask := v &&& aerBits }
  | 0x10C => s.setFn p f { x with aerSev := v &&& aerBits }
  | 0x114 => s.setFn p f { x with aerCorMask := v % 65536 }
  | 0x118 => s.setFn p f { x with ecrcGen := v.testBit 6, ecrcChk := v.testBit 8 }
  | 0x148 => if f = 0 then s.setVfs p (v.testBit 0) y.vfNum else s
  | 0x164 => if f = 0 then s.setFn p f { x with vfBar0 := setBits x.vfBar0 0 32 v } else s
  | 0x168 => if f = 0 then s.setFn p f { x with vfBar0 := setBits x.vfBar0 32 32 v } else s
  | 0x150 => if f = 0 && !y.vfEnable then s.modPort p fun y => { y with vfNum := v % 65536 } else s
  | _ => s

/-- REGISTER_WRITE. A host's access must be of 4 or 8 bytes and aligned; another has no effect (10 R320). -/
def State.registerWrite (s : State) (r : RegAt) (n : Nat) (v : Word64) : State :=
  match r with
  | .window p off =>
    if !s.reach p 0 then s.unsupported p 0 false
    else if aligned off n && decide (off < 0x10000000) then s.windowWrite (.host p) off n v.toNat else s
  | .block p f off =>
    if !s.reach p f.val then s.unsupported p f.val false
    else if aligned off n && decide (off < 0x10000) then s.blockWrite p f off n v.toNat else s
  | .die id => if s.isReady then s.dieRegister id else s
  | .config p f off => if s.fnUp p f.val then s.configWrite p f.val off (v.toNat % 2 ^ 32) else s

def execRegisterWrite (r : RegAt) (n : Nat) (v : Word64) (s : State) : Host.Outcome State Fault Refusal :=
  s.inner (s.registerWrite r n v)

/-- A read of 4 or 8 bytes of the window by a host: data, or Completer Abort. -/
def State.windowRead (s : State) (p : PortId) (off n : Nat) : State :=
  if 0x5000000 ≤ off ∧ off < 0x7000000 then
    let r := s.bufRead ((off - 0x5000000) / 0x10000) (off % 0x10000) n
    r.2.emit (.completion p 0 r.1.bytes r.1.poison)
  else
    match s.window32 off with
    | none => s.abortRead p 0
    | some (a, s1) =>
      if n = 8 then
        match s1.window32 (off + 4) with
        | none => s.abortRead p 0
        | some (b, s2) => s2.emit (.completion p 0 (a.bytes ++ b.bytes) (a.poison || b.poison))
      else s1.emit (.completion p 0 a.bytes a.poison)

/-- RC_REGISTER_READ: a register is read; read-clear registers clear. -/
def State.registerRead (s : State) (r : RegAt) (n : Nat) : State :=
  match r with
  | .window p off =>
    if !s.reach p 0 then s.unsupported p 0 true
    else if aligned off n && decide (off < 0x10000000) then s.windowRead p off n else s.abortRead p 0
  | .block p f off =>
    if !s.reach p f.val then s.unsupported p f.val true
    else if aligned off n && decide (off < 0x10000) then
      let x := s.blockRead p f off n
      x.2.emit (.completion p 0 (leBytes n x.1) false)
    else s.abortRead p f.val
  | .die id => if s.isReady && (match s.txn? id with | some q => (match placeOf q.dest.addr with | .control _ => true | _ => false) | none => false)
      then s.homeRead id {} else s
  | .config p f off =>
    if !s.fnUp p f.val then s else (match s.configWord p f.val off with | some w => s.emit (.completion p 0 (leBytes 4 w) false) | none => s)

def execRcRegisterRead (r : RegAt) (n : Nat) (s : State) : Host.Outcome State Fault Refusal := s.inner (s.registerRead r n)

end Sys2Proof.Machine
end

