-- ==== Sys2Proof/Machine/HostPort.lean ====
section
/-!
DEFINITION. Meanings of the host port commands that act on ports, functions, queues, partitions and stewardship: port reset and link training,
function-level reset, the memory aperture, doorbells, queue states, assignment, partition resets, stewardship (10 R316 to R329, R342 to R353).
-/

namespace Sys2Proof.Machine

/-! ## PORT_RESET, PERST_DEASSERT, PCIE_LINK_UP (10 R316, R317, R352; 16 R502) -/

/-- A function's registers return to their reset values; its assignment is kept (10 R324). -/
def Fn.cleared (x : Fn) : Fn := { qBase := x.qBase, qCount := x.qCount, qPart := x.qPart }

/-- A port reset (10 R352): its partitions' resets last until PARTITION_RESET_DONE. The reset that R346 counts from is the first since the port was last up. -/
def State.portReset (s : State) (p : PortId) (cause : Nat) : State :=
  let owned := (List.range 16).filter fun q => s.ownerOf q == some p
  let mine (o : HostOp) : Bool := o.port == p
  let s := s.endLaunches mine
  let s := owned.foldl (fun s q => s.stopPart q fun o => o.port == p && o.part == q) s
  let s := s.endOps mine
  let s : State := { s with
    hostReads := s.hostReads.filter fun r => r.port != p
    resetting := (s.resetting.filter fun r => !owned.contains r.1) ++ (owned.map fun q => (q, 32 + 16 * b2n p)) }
  let qs := (List.range 16).flatMap fun f => let x := s.fn p f; (List.range x.qCount).map (x.qBase + ·)
  let s := qs.foldl (fun s q => s.setQueue q {}) s
  let s := ((List.range 16).foldl (fun s f => s.modFn p f Fn.cleared) s).orphan fun x _ => x == p
  let s := s.modPort p fun x => { x with
    up := false, rate := 0, width := 0, vfEnable := false, vfNum := 0, numVfs := 0, reads := [], sel := {}
    resets := inc32 x.resets, resetTs := if x.wasReset then x.resetTs else s.ts, causeEnd := s.ts, wasReset := x.wasReset || p == s.stew.port }
  s.post { code := 0x51, source := if p then 0x8B else 0x8A, args := [b2n p, cause + 1] }

/-- PERST_x_N of a port as it stands. -/
def State.perstOf (s : State) (p : PortId) : Bool := s.power.perst.getD (b2n p) false

def State.setPerst (s : State) (p : PortId) (v : Bool) : State :=
  { s with power := { s.power with perst := if p then [s.perstOf false, v] else [v, s.perstOf true] } }

/-- PORT_RESET: 0 PERST asserted, 1 loss of link, 2 hot reset. The working parts see PERST only at Ready (16 R502). -/
def execPortReset (p : PortId) (cause : Fin 3) (s : State) : Host.Outcome State Fault Refusal :=
  s.ported (
    if cause = 0 then
      if s.perstOf p then s
      else
        let s := s.setPerst p true
        if s.isReady then s.portReset p 0 else s
    else if s.isReady && (s.port p).up then s.portReset p cause.val else s)

def execPerstDeassert (p : PortId) (s : State) : Host.Outcome State Fault Refusal := s.ported (
    let s' := s.setPerst p false
    if s.perstOf p && s.isReady then s'.modPort p fun x => { x with causeEnd := s.ts } else s')

/-- Settings of a port by the dictionary, which its next training takes (10 R317). -/
def State.portSet (s : State) (p : PortId) (sub : Nat) : Nat := s.odNow (if p then 0x4010 else 0x4000) sub

/-- A link trains within the settings in force at its training: they are taken here. -/
def State.linkUp (s : State) (p : PortId) (rate width : Nat) : State :=
  if s.isReady && !s.perstOf p && !(s.port p).up && decide ((s.port p).causeEnd + 1000000 ≤ s.ts) && decide (1 ≤ rate) && decide (rate ≤ s.portSet p 2)
      && [1, 2, 4, 8].contains width && decide (width ≤ s.portSet p 3) then
    let taken := [s.portSet p 1, s.portSet p 2, s.portSet p 3, s.portSet p 4]
    s.modPort p fun x => { x with up := true, rate := rate, width := width, wasReset := false, trained := taken }
  else s

def execPcieLinkUp (p : PortId) (rate width : Nat) (s : State) : Host.Outcome State Fault Refusal := s.inner (s.linkUp p rate width)

/-! ## FUNCTION_LEVEL_RESET (10 R353) -/

/-- A function-level reset of a VF, or of a PF with all its VFs, which then no longer exist (PRESUMED, SR-IOV, log 25). -/
def State.flr (s : State) (p : PortId) (f : Nat) : State :=
  let fs := if f = 0 then List.range 16 else [f]
  let s := fs.foldl (fun s f => s.resetFn p f) s
  if f = 0 then s.modPort p fun x => { x with vfEnable := false, vfNum := 0, numVfs := 0 } else s

def execFunctionLevelReset (p : PortId) (f : FnId) (s : State) : Host.Outcome State Fault Refusal :=
  s.inner (if s.fnUp p f.val then s.flr p f.val else s)

/-! ## APERTURE_READ, APERTURE_WRITE (10 R321) -/

/-- Does a span lie in tiers and scratchpads alone? -/
def spanMapped (a n : Nat) : Bool :=
  (spanCuts a n).all fun c => (match placeOf (a + c.1) with | .tier _ _ => true | .scratch _ _ => true | _ => false)

/-- Die address of an aperture offset. -/
def State.apertureAt (s : State) (p : PortId) (o : Nat) : Nat := ((s.fn p 0).base * 2 ^ 36 + o) % 2 ^ 64

/-- Partition of a port's aperture accesses: that of its PF's pool assignment. -/
def State.aperturePart (s : State) (p : PortId) : Option Nat := if (s.fn p 0).qCount = 0 then none else some (s.fn p 0).qPart

/-- A read of device memory: a grain at a time, each on its way to its home; the last one back completes it. -/
def State.apertureRead (s : State) (p : PortId) (addr len : Nat) : State :=
  let a := s.apertureAt p addr
  let cuts := spanCuts a len
  let id := s.nextId
  if !s.reach p 0 then s.unsupported p 0 true
  else if spanMapped a len then
    cuts.foldl (fun (s : State) c => s.ask { id := 0, agent := .host p, kind := .read, dest := ⟨none, a + c.1⟩, len := c.2, part := s.aperturePart p, purpose := .host id c.1 })
      (({ s with nextId := id + 1 } : State).modPort p fun x => { x with reads := x.reads ++ [{ id := id, len := len, left := cuts.length }] })
  else s.abortRead p 0

def execApertureRead (p : PortId) (addr len : Nat) (_attrs : Fin 4) (s : State) : Host.Outcome State Fault Refusal :=
  s.inner (s.apertureRead p addr len)

/-- A posted write of device memory: its grains are on their way to their homes, and what the host sends next waits for them (09 R312). -/
def State.apertureWrite (s : State) (p : PortId) (addr : Nat) (data : List Byte) (ep : Bool) : State :=
  let a := s.apertureAt p addr
  if !s.reach p 0 then s.unsupported p 0 false
  else if spanMapped a data.length then
    (spanCuts a data.length).foldl (fun (s : State) c => s.ask {
      id := 0, agent := .host p, kind := .write, dest := ⟨none, a + c.1⟩, len := c.2, data := ⟨(data.drop c.1).take c.2, ep⟩, part := s.aperturePart p
      purpose := .posted }) s
  else s.modCount 0x7209 1 1

def execApertureWrite (p : PortId) (addr : Nat) (data : List Byte) (ep : Bool) (_attrs : Fin 4) (s : State) : Host.Outcome State Fault Refusal :=
  s.inner (s.apertureWrite p addr data ep)

/-! ## Doorbells and queue states (10 R325, R328, R329) -/

/-- Act on the pool queue of a function's local number, where a host reaches it. -/
def State.onQueue (s : State) (p : PortId) (f : FnId) (q : Nat) (g : State → Nat → State) : State :=
  if s.reach p f.val then (match s.poolQueue p f.val q with | some n => g s n | none => s) else s

def execSqTail (p : PortId) (f : FnId) (q : Nat) (v : BitVec 16) (s : State) : Host.Outcome State Fault Refusal :=
  s.inner (s.onQueue p f q fun s n => s.sqTail n v.toNat)

def execCqHead (p : PortId) (f : FnId) (q : Nat) (v : BitVec 16) (s : State) : Host.Outcome State Fault Refusal :=
  s.inner (s.onQueue p f q fun s n => s.cqHead n v.toNat)

def execQueueEnable (p : PortId) (f : FnId) (q : Nat) (s : State) : Host.Outcome State Fault Refusal :=
  s.inner (s.onQueue p f q State.queueEnable)

def execQueueDisable (p : PortId) (f : FnId) (q : Nat) (s : State) : Host.Outcome State Fault Refusal :=
  s.inner (s.onQueue p f q State.queueDisable)

/-! ## Assignment, partition reset, stewardship (10 R324, R326, R342 to R346) -/

/-- A write of a PF's register; a VF ignores it. -/
def State.pfWrite (s : State) (p : PortId) (f : FnId) (g : State → State) : State := if s.reach p f.val && f.val == 0 then g s else s

def execQueueAssign (p : PortId) (f : FnId) (v : Word64) (s : State) : Host.Outcome State Fault Refusal :=
  s.inner (s.pfWrite p f fun s => s.assign p v.toNat)

def execPartitionReset (p : PortId) (f : FnId) (part : PartId) (s : State) : Host.Outcome State Fault Refusal :=
  s.inner (s.pfWrite p f fun s => s.resetPart p part.val)

/-- Partition of an outstanding read of host memory. -/
def State.readPart (s : State) (r : HostRead) : Nat :=
  match r.what with
  | .fetch _ _ => (s.fn r.port r.fn).qPart
  | .copy o _ _ => ((s.op? o).map (·.part)).getD 16
  | .image o _ _ => ((s.op? o).map (·.part)).getD 16

def State.dropReads (s : State) (part : Nat) : State := { s with hostReads := s.hostReads.filter fun r => s.readPart r != part }

/-- Does a partition's reset still wait: kernels that have not ended, descriptors on their way, which are in flight (10 R338), copies with a grain on its way, sequences
to remove at the boundary? -/
def State.partBusy (s : State) (part : Nat) : Bool :=
  let ids := (s.ops.filter fun o => o.part == part).map (·.id)
  (s.launches.any fun l => (match l.by_ with | .hostOp o => ids.contains o | .laurel => false)) ||
  (s.hostReads.any fun r => (match r.what with | .fetch _ _ => s.readPart r == part | _ => false)) ||
  (s.txns.any fun q => (match q.purpose with | .copy o _ => ids.contains o | _ => false)) ||
  s.liveSeqs.any fun q => (s.seq q).part == part

/-- PARTITION_RESET_DONE. Operations in flight end with ABORTED, with the descriptors that were on their way among them; once their records are written, by
COMPLETION_RECORD (where the link is up), queues return to state 0 and the functions are told (10 R342). A port reset's function blocks stand at their reset values. -/
def State.partDone (s : State) (part : Nat) : State :=
  match s.resetting.find? (·.1 == part) with
  | none => s
  | some r =>
    let mine (o : HostOp) : Bool := o.part == part
    if s.partBusy part then s
    else if s.ops.any fun o => mine o && o.stage != .done && !o.silent then
      let open_ := s.ops.filter fun o => mine o && o.stage != .done && !o.silent
      let s := (open_.filter fun o => o.opcode == 6 && o.stage == .running).foldl (fun s o => s.imageFailed o.image) s
      let s := open_.foldl (fun s o => s.dropDrain o.id) s
      let s := s.dropReads part
      open_.foldl (fun s o => s.modOp o.id fun o => o.finish 8 0 0) s
    else if s.ops.any fun o => mine o && !o.silent && (s.port o.port).up then s
    else
      let s : State := { s with ops := s.ops.filter fun o => !mine o || (o.silent && o.stage != OpStage.done) }
      let s := (s.queuesOf part).foldl (fun s q => s.modQueue q QPair.stopped) s
      let s := if 32 ≤ r.2 then s else (s.holdersOf part).foldl (fun s x => s.fnEvent x.1 x.2 3) s
      { s with resetting := s.resetting.filter (·.1 != part) }

def execPartitionResetDone (part : PartId) (s : State) : Host.Outcome State Fault Refusal := s.inner (if s.isReady then s.partDone part.val else s)

def execReleaseStewardship (p : PortId) (s : State) : Host.Outcome State Fault Refusal := s.inner (if s.reach p 0 then s.release p else s)

def execClaimStewardship (p : PortId) (s : State) : Host.Outcome State Fault Refusal := s.inner (if s.reach p 0 then s.claim p else s)

/-- STEWARD_AUTO_PASS (10 R346). -/
def State.autoPass (s : State) : State :=
  let x := s.port s.stew.port
  if s.isReady && x.wasReset && !x.up && s.odv 0x4100 3 == 1 && decide (1000000 * s.odv 0x4100 4 ≤ s.ts - x.resetTs) && (s.port !s.stew.port).up then
    s.passSteward (!s.stew.port) 4
  else s

def execStewardAutoPass (s : State) : Host.Outcome State Fault Refusal := s.inner s.autoPass

end Sys2Proof.Machine
end

