-- ==== Sys2Proof/Machine/HostData.lean ====
section
/-!
DEFINITION. Meanings of the commands that carry operations through the queues: descriptor fetches, reads of host memory, kernels, copies, drains,
images, completion records and messages (10 R330 to R339, R347 to R349, R354; 04 R139 to R141; 06 R189 to R191).
-/

namespace Sys2Proof.Machine

/-! ## DESCRIPTOR_FETCH (10 R330, R338) -/

/-- Operations in flight across both ports, and doorbells that a drain has latched (04 R140). -/
def State.inFlightAll (s : State) : Nat :=
  (s.queues.map fun q => q.2.inFlight + b2n q.2.latched.isSome).foldl (· + ·) 0

/-- Operations in flight of a partition. -/
def State.inFlightOf (s : State) (part : Nat) : Nat :=
  ((s.queuesOf part).map fun q => (s.queue q).inFlight + b2n (s.queue q).latched.isSome).foldl (· + ·) 0

/-- Entries of a port's descriptor buffer in use: descriptors on their way, and fetched operations that have not begun. -/
def State.bufferOf (s : State) (p : PortId) : Nat :=
  (s.ops.countP fun o => o.port == p && o.stage == .fetched) +
    ((s.hostReads.map fun r => if r.port = p then (match r.what with | .fetch _ n => n | _ => 0) else 0).foldl (· + ·) 0)

/-- A read of host memory leaves a port, for a partition whose PCIe regulator lets it (10 R341). -/
def State.hostRead (s : State) (p : PortId) (f part addr len : Nat) (what : ReadFor) : State :=
  let s := s.pcie part false len
  let r : HostRead := { id := s.nextId, port := p, fn := f, addr := addr % 2 ^ 64, len := len, what := what, sent := s.ts }
  ({ s with hostReads := s.hostReads ++ [r], nextId := s.nextId + 1 }).emit (.hostRead p (addr % 2 ^ 64) len)

/-- Where the next descriptors of queue `q` lie in its ring, and how many there are. -/
def QPair.due (x : QPair) : Nat × Nat :=
  let size := 2 ^ x.sqLog
  ((x.sqHead + x.fetching) % size, (x.tail + size - x.sqHead) % size - x.fetching)

/-- May `n` descriptors of queue `q`, which a function of a port holds, be fetched: they are there, a record slot, an in-flight place and room in the port's buffer are free
for each? -/
def State.fetchable (s : State) (p : PortId) (f q n : Nat) : Bool :=
  let x := s.queue q
  let part := (s.fn p f).qPart
  s.fnUp p f && !(s.fn p f).d3hot && x.state == 1 && decide (1 ≤ n) && decide (n ≤ 8) && decide (n ≤ x.due.2) && decide (x.due.1 + n ≤ 2 ^ x.sqLog)
    && decide (x.used + n ≤ 2 ^ x.cqLog) && decide (s.inFlightAll + n ≤ 4096) && decide (s.inFlightOf part + n ≤ s.odv 0x5001 (part + 1))
    && decide (s.bufferOf p + n ≤ 512) && !(s.resetting.any (·.1 == part))

/-- Does the other port ask for in-flight places too? -/
def State.rival (s : State) (p : PortId) : Bool :=
  s.queues.keys.any fun q => match s.holderOf q with | some (y, f, _) => y != p && s.fetchable y f q 1 | none => false

/-- The arbiter for places grants port `p`, with its state after the grant; none where the other port comes first (03 R104, R106, 10 R338). -/
def State.placeGrant (s : State) (p : PortId) : Option Arb :=
  let x := s.places
  let asks : List ArbIn := ([false, true].filter fun y => y == p || s.rival p).map fun y => { req := b2n y }
  let starve := decide (s.odNow 0x5080 5 ≤ x.since + 1)
  match arbPick x starve (fun _ => 0) (fun i => s.odv 0x5081 (3 + i.req)) asks with
  | some w =>
    if w.req != b2n p then none
    else
      let y := (asks.filter (· != w)).foldl (fun (y : Arb) i => y.wait i.req true) (x.note w.req)
      some { y with last := w.req, since := if starve then 0 else x.since + 1 }
  | none => none

/-- Up to 8 descriptors in ring order are fetched, each with a record slot and an in-flight place reserved. -/
def State.fetch (s : State) (q n : Nat) : State :=
  let x := s.queue q
  match s.holderOf q with
  | none => s
  | some (p, f, _) =>
    match s.placeGrant p with
    | none => s
    | some g =>
      if s.fetchable p f q n then
        (({ s with places := g } : State).setQueue q { x with used := x.used + n, inFlight := x.inFlight + n, fetching := x.fetching + n }).hostRead p f
          (s.fn p f).qPart (x.sqBase / 64 * 64 + 64 * x.due.1) (64 * n) (.fetch q n)
      else s

def execDescriptorFetch (q : QueueId) (n : Nat) (s : State) : Host.Outcome State Fault Refusal := s.inner (s.fetch q.val n)

/-! ## HOST_READ_COMPLETION, HOST_READ_TIMEOUT (10 R318, R329, R330, R354) -/

/-- A descriptor read has failed: the queue's descriptors on their way are given up. -/
def State.fetchFailed (s : State) (q : Nat) : State :=
  let x := s.queue q
  let s := { s with hostReads := s.hostReads.filter fun r => (match r.what with | .fetch y _ => y != q | _ => true) }
  (s.setQueue q { x with used := x.used - x.fetching, inFlight := x.inFlight - x.fetching, fetching := 0 }).queueError q 3

/-- Descriptors arrive: each is an operation from now on. -/
def State.fetched (s : State) (r : HostRead) (q n : Nat) (data : List Byte) : State :=
  let part := (s.fn r.port r.fn).qPart
  let mk (i : Nat) : HostOp :=
    { id := s.nextId + i, port := r.port, fn := r.fn, queue := q, part := part, desc := padTo 64 ((data.drop (64 * i)).take 64)
      steward := r.fn == 0 && r.port == s.stew.port }
  let s := { s with ops := s.ops ++ (List.range n).map mk, nextId := s.nextId + n }
  s.modQueue q fun x => { x with fetching := x.fetching - n, sqHead := (x.sqHead + n) % 2 ^ x.sqLog }

/-- Bytes of a copy will not come: what it asked for is less. -/
def HostOp.lose (o : HostOp) (n : Nat) : HostOp :=
  let o := { o with left := o.left - n }
  if o.left = 0 then o.finish o.status 0 0 else o

/-- Bytes of a copy that a read of packed bytes `off` up to `off + len` brings to the die. -/
def HostOp.bytesOf (o : HostOp) (off len : Nat) : Nat :=
  if o.opcode = 3 then ((o.pieces.filter fun p => decide (off ≤ p.off) && decide (p.off < off + len)).map (·.len)).foldl (· + ·) 0 else len

/-- Where the bytes of a copy from the host go: offset in what has been read, die address, mask. -/
def HostOp.toDie (o : HostOp) (off len : Nat) : List (Nat × Nat × List Byte) :=
  if o.opcode = 3 then
    (o.pieces.filter fun p => decide (off ≤ p.off) && decide (p.off < off + len)).map fun p => (p.off - off, p.addr, p.mask)
  else
    let a := fieldAt o.desc 0x10 8 + off
    (spanCuts a len).map fun c => (c.1, a + c.1, List.replicate c.2 0xFF#8)

/-- Data of a copy from the host is on its way to its homes. -/
def State.copyIn (s : State) (o : HostOp) (off len : Nat) (data : List Byte) (poison : Bool) : State :=
  (o.toDie off len).foldl (fun s x =>
    s.ask {
      id := 0
      agent := .copy o.port
      kind := .write
      dest := ⟨none, x.2.1⟩
      len := x.2.2.length
      data := ⟨((padTo len data).drop x.1).zipWith (· &&& ·) x.2.2, poison⟩
      part := some o.part
      purpose := .copy o.id off })
    (s.modOp o.id fun y => { y with poisoned := y.poisoned || poison })

/-- A copy's read of host memory has come back, or failed. -/
def State.copyData (s : State) (op off len : Nat) (data : List Byte) (ok poison : Bool) : State :=
  match s.op? op with
  | none => s
  | some o =>
    if o.stage != .running then s
    else
      let n := o.bytesOf off len
      if !ok then s.modOp op fun o => (o.cut 7).lose n
      else if o.status != 0 then s.modOp op fun o => o.lose n
      else if n = 0 then s
      else s.copyIn o off len data poison

/-- An image load ends with the boundary that it holds, which is released once step-quiet is raised (04 R143). -/
def State.imageEnd (s : State) (op status reason sect : Nat) : State :=
  let s := s.modOp op fun o => o.finish status reason sect
  let d := s.drain
  let s := { s with drain := { d with ops := d.ops.filter (· != op), heldImage := false } }
  if d.heldMarch || !d.quiet then s else s.releaseBoundary

/-- The first section with data among the `len` bytes of an image that follow those read so far; 0 where the section table has none (10 R349). -/
def sectAtByte (img : List Byte) (len : Nat) : Nat :=
  (((sectsOf img).find? fun x => x.ty != 5 && decide (x.off < img.length + len) && decide (img.length < x.off + x.len)).map (·.idx)).getD 0

/-- Bytes of an image have come, or their read has failed. -/
def State.imageData (s : State) (op : Nat) (data : List Byte) (ok poison : Bool) (len : Nat) : State :=
  match s.op? op with
  | none => s
  | some o =>
    if ok && !poison then
      s.modOp op fun o => { o with
        image := o.image ++ padTo len data
        owner := if o.owner.isNone && decide (0x80 ≤ o.image.length + len) then some s.ownerRule else o.owner
        left := o.left - len, bytes := satAdd 32 o.bytes len }
    else
      let s := { s with hostReads := s.hostReads.filter fun r => (match r.what with | .image y _ _ => y != op | _ => true) }
      (s.imageFailed o.image).imageEnd op 10 8 (sectAtByte o.image len)

/-- May a read's data be taken now: descriptors in ring order, an image from its start? -/
def State.readInTurn (s : State) (r : HostRead) : Bool :=
  match r.what with
  | .fetch q _ => !(s.hostReads.any fun y => decide (y.id < r.id) && (match y.what with | .fetch z _ => z == q | _ => false))
  | .image op off _ => (match s.op? op with | some o => o.image.length == off | none => true)
  | .copy _ _ _ => true

/-- A read of host memory ends. -/
def State.readDone (s : State) (id : Nat) (data : List Byte) (ok poison : Bool) (bufErr : Nat) : State :=
  match s.hostReads.find? (·.id == id) with
  | none => s
  | some r =>
    if !s.isReady || !s.readInTurn r then s
    else
      let s := { s with hostReads := s.hostReads.filter (·.id != id) }
      let s := if poison then s.aer r.port r.fn 12 else s
      match r.what with
      | .fetch q n =>
        if !ok || poison then s.fetchFailed q
        else if bufErr = 2 then
          let d := s.draw
          (d.2.sramUncorr (if r.port then 0x8B else 0x8A) 8 (64 * (d.1.toNat % 512))).fetchFailed q
        else (s.sramCorr (if bufErr = 1 then 1 else 0)).fetched r q n data
      | .copy op off len => s.copyData op off len data ok poison
      | .image op _ len => s.imageData op data ok poison len

def execHostReadCompletion (id : Nat) (data : List Byte) (ok poison : Bool) (bufErr : Fin 3) (s : State) : Host.Outcome State Fault Refusal :=
  s.inner (s.readDone id data ok poison bufErr.val)

/-- The shortest time, in ns, that a completion timeout may take by Device Control 2; none where it is disabled (R318: ranges A to D, 50 µs to 50 ms by default;
PRESUMED, PCIe's coding, log 86). -/
def cplTimeout (v : Nat) : Option Nat :=
  if v.testBit 4 then none
  else some (match v % 16 with
    | 2 => 1000000
    | 5 => 16000000
    | 6 => 65000000
    | 9 => 260000000
    | 10 => 1000000000
    | 13 => 4000000000
    | 14 => 17000000000
    | _ => 50000)

/-- Has read `r` been outstanding long enough to time out? -/
def State.readLate (s : State) (r : HostRead) : Bool :=
  match cplTimeout (s.fn r.port r.fn).devCtl2 with
  | none => false
  | some n => decide (n ≤ s.ts - r.sent)

/-- A read of host memory times out (R318, R354). -/
def State.readTimeout (s : State) (id : Nat) : State :=
  match s.hostReads.find? (·.id == id) with
  | none => s
  | some r => if s.readLate r then (s.aer r.port r.fn 14).readDone id [] false false 0 else s

def execHostReadTimeout (id : Nat) (s : State) : Host.Outcome State Fault Refusal := s.inner (s.readTimeout id)

/-! ## NOP, KERNEL (10 R332, R333) -/

def State.opNop (s : State) (op : Nat) : State :=
  match s.starts op 0 with
  | none => s
  | some _ => s.modOp op fun o => o.finish 0 0 0

def execNop (op : Nat) (s : State) : Host.Outcome State Fault Refusal := s.inner (s.began op 0 (s.opNop op))

/-- A kernel is launched with the stream header that its descriptor is. -/
def State.opKernel (s : State) (op : Nat) : State :=
  match s.starts op 1 with
  | none => s
  | some o =>
    if s.model.isNone then s.modOp op fun o => o.finish 9 0 0
    else
      let s := s.modOp op fun o => { o with stage := .running }
      s.launch (.hostOp op) (some o.part) (fieldAt o.desc 8 8) (fieldAt o.desc 0x10 8) (fieldAt o.desc 0x18 4)
        ((List.range 8).map fun h => fieldAt o.desc (0x20 + 2 * h) 2)

def execKernel (op : Nat) (s : State) : Host.Outcome State Fault Refusal := s.inner (s.began op 1 (s.opKernel op))

/-! ## COPY, COPY_TENSOR (10 R333) -/

/-- The mapped range of 07 R206 that an address lies in, by its first address and its end. -/
def mappedRange (a : Nat) : Option (Nat × Nat) :=
  match placeOf a with
  | .tier k _ => if k < 8 then some (tierBase k, tierBase k + 0x1000000000)
      else if a < 0x8600000000 then some (0x8000000000, 0x8600000000) else some (0x8600000000, 0x8C00000000)
  | .scratch t _ => some (scratchBase t, scratchBase t + 0x200000)
  | _ => none

/-- Does a range reach the control range? -/
def reachesControl (a n : Nat) : Bool := decide (a < 0x10000000000) && decide (controlBase < a + n)

/-- Status with which a copy of a die range is refused, 0 for none. -/
def copyRefused (a n : Nat) : Nat :=
  if reachesControl a n then 5
  else
    match mappedRange a with
    | some r => if a + n ≤ r.2 then 0 else 6
    | none => 6

/-- A copy begins: `n` bytes in all. -/
def HostOp.begin (o : HostOp) (n left : Nat) (pieces : List CPiece) : HostOp := { o with stage := .running, total := n, left := left, pieces := pieces }

/-- The longest read of host memory that a function sends: its largest read request (R316). -/
def State.readMax (s : State) (o : HostOp) : Nat := 128 * 2 ^ (s.fn o.port o.fn).mrrs

/-- A copy's die bytes are asked for, on their way to the host. -/
def State.copyOut (s : State) (o : HostOp) (off a n : Nat) : State :=
  s.ask { id := 0, agent := .copy o.port, kind := .read, dest := ⟨none, a⟩, len := n, part := some o.part, purpose := .copy o.id off }

/-- The next piece of a COPY. -/
def State.copyNext (s : State) (o : HostOp) : State :=
  let host := fieldAt o.desc 8 8
  let die := fieldAt o.desc 0x10 8
  let rest := o.total - o.sent
  if rest = 0 then s
  else if o.toHost then
    let n := min rest (256 - (die + o.sent) % 64)
    let s := (spanCuts (die + o.sent) n).foldl (fun s c => s.copyOut o (o.sent + c.1) (die + o.sent + c.1) c.2) s
    s.modOp o.id fun o => { o with sent := o.sent + n }
  else
    let n := min rest (s.readMax o)
    (s.modOp o.id fun o => { o with sent := o.sent + n }).hostRead o.port o.fn o.part (host + o.sent) n (.copy o.id o.sent n)

/-- COPY: it begins, or asks for its next piece. -/
def State.opCopy (s : State) (op : Nat) : State :=
  match s.starts op 2 with
  | some o =>
    let n := fieldAt o.desc 0x18 4
    if n = 0 then s.modOp op fun o => { o.finish 0 0 0 with zeroLen := true }
    else
      let r := copyRefused (fieldAt o.desc 0x10 8) n
      if r != 0 then s.modOp op fun o => o.finish r 0 0
      else
        let o := o.begin n n []
        (s.modOp op fun _ => o).copyNext o
  | none =>
    match s.op? op with
    | some o => if s.isReady && o.opcode == 2 && o.stage == .running then s.copyNext o else s
    | none => s

def execCopy (op : Nat) (s : State) : Host.Outcome State Fault Refusal := s.inner (s.began op 2 (s.opCopy op))

/-- The pieces of a tensor copy of G grains, with the masks that leave padding zero (06 R178, R190, R191). -/
def tensorPieces (w : Window) (n pos g : Nat) (toHost : Bool) : List CPiece :=
  let limit := min g w.grains
  let ones := w.padImage n pos limit (List.replicate (64 * limit) 0xFF#8)
  (w.pieces n pos limit (!toHost)).map fun p =>
    ⟨p.off, p.len, (p.at_.getD 0 ⟨none, 0⟩).addr, if toHost then [] else (ones.drop p.off).take p.len⟩

/-- The next piece of a COPY_TENSOR: packed grains; grains past the window are zero at the host, and are not asked of it. -/
def State.tensorNext (s : State) (o : HostOp) : State :=
  let host := fieldAt o.desc 8 8
  let rest := o.total - o.sent
  if rest = 0 then s
  else if o.toHost then
    let ps := o.pieces.filter fun p => decide (o.sent ≤ p.off) && decide (p.off < o.sent + 64)
    let s := s.modOp o.id fun o => { o with sent := o.sent + 64 }
    let s := ps.foldl (fun s p => s.copyOut o p.off p.addr p.len) s
    let gap := (ps.getLast?.map fun p => p.off + p.len).getD o.sent
    let n := o.sent + 64 - gap
    if n = 0 then s
    else ((s.pcie o.part true n).emit (.hostWrite o.port ((host + gap) % 2 ^ 64) (zeros n) false)).modOp o.id fun o => o.moved n false false
  else
    let n := min rest (s.readMax o)
    (s.modOp o.id fun o => { o with sent := o.sent + n }).hostRead o.port o.fn o.part (host + o.sent) n (.copy o.id o.sent n)

/-- A tensor copy's descriptors are read from their homes. -/
def State.tensorDescs (s : State) (o : HostOp) : List Piece × State :=
  let x := s.readFor (some o.part) (fieldAt o.desc 0x10 8) 64
  if x.1.poison then ([x.1], x.2)
  else
    let d := x.2.readFor (some o.part) (fieldAt x.1.bytes 0 8) 64
    ([x.1, d.1], d.2)

/-- Status with which the range of a tensor copy is refused, 0 for none: it reaches the control range, or leaves the mapped range in which it starts (R333). -/
def piecesRefused (ps : List CPiece) : Nat :=
  if ps.any fun p => reachesControl p.addr p.len then 5
  else
    match ps.head? with
    | none => 0
    | some p =>
      match mappedRange p.addr with
      | some r => if ps.all fun x => decide (r.1 ≤ x.addr) && decide (x.addr + x.len ≤ r.2) then 0 else 6
      | none => 6

/-- COPY_TENSOR begins: an empty one ends (00 R10); descriptors are checked, then the range. DESIGN CHOICE (log 51): a LOCAL descriptor, which no tile reads here, is
refused with BAD_FIELD. -/
def State.tensorBegin (s : State) (o : HostOp) : State :=
  let end_ (s : State) (code : Nat) (zero : Bool) : State := s.modOp o.id fun o => { o.finish code 0 0 with zeroLen := zero }
  let g := fieldAt o.desc 0x18 4
  if g = 0 then end_ s 0 true
  else
    let r := s.forWho (o.id + 1) fun s => s.tensorDescs o
    let d := TDesc.parse ((r.1.getD 1 {}).bytes) []
    if r.1.any (·.poison) || d.dist || d.isLocal || d.bad 1 || d.isEmpty then end_ r.2 3 false
    else
      let w := Window.of (XDesc.parse ((r.1.getD 0 {}).bytes)) d
      if w.vectors == 0 then end_ r.2 0 true
      else
        let ps := tensorPieces w 1 0 g o.toHost
        if piecesRefused ps != 0 then end_ r.2 (piecesRefused ps) false
        else
          let left := if o.toHost then 64 * g else (ps.map (·.len)).foldl (· + ·) 0
          let total := if o.toHost then 64 * g else 64 * min g w.grains
          let o := o.begin total left ps
          (r.2.modOp o.id fun _ => o).tensorNext o

def State.opCopyTensor (s : State) (op : Nat) : State :=
  match s.starts op 3 with
  | some o => s.tensorBegin o
  | none =>
    match s.op? op with
    | some o => if s.isReady && o.opcode == 3 && o.stage == .running then s.tensorNext o else s
    | none => s

def execCopyTensor (op : Nat) (s : State) : Host.Outcome State Fault Refusal := s.inner (s.began op 3 (s.opCopyTensor op))

/-! ## DRAIN, IMAGE_LOAD, IMAGE_UNLOAD (10 R334, R348, R349) -/

/-- A drain begins, for an operation (04 R139). -/
def State.beginDrain (s : State) (op : Nat) : State :=
  let d := s.drain
  let s := s.modOp op fun o => { o with stage := .running }
  { s with drain := { d with active := true, since := if d.active then d.since else s.fabricTs 0x89, ops := d.ops ++ [op] } }

def State.opDrain (s : State) (op : Nat) : State :=
  match s.starts op 5 with
  | none => s
  | some o => if o.steward then s.beginDrain op else s.modOp op fun o => o.finish 4 0 0

def execDrain (op : Nat) (s : State) : Host.Outcome State Fault Refusal := s.inner (s.began op 5 (s.opDrain op))

/-- A header or section table that is refused as soon as it has been read: reason and section. -/
def imageEarly (img : List Byte) (len : Nat) : Option (Nat × Nat) :=
  if img.length < min len 0x80 then none
  else
    let h := headerReason img len
    if h != 0 then some (h, 0)
    else if img.length < 0x80 + 32 * fieldAt img 6 2 then none
    else ((sectsOf img).find? fun x => x.bad (imageLimit img)).map fun x => (4, x.idx)

/-- The next piece of an image is asked for, or the image is whole and is loaded. -/
def State.imageNext (s : State) (o : HostOp) : State :=
  let len := o.total
  match imageEarly o.image len with
  | some (reason, sect) => ((s.haltCores).clearModel).imageEnd o.id 10 reason sect
  | none =>
    if o.sent < len then
      let n := min (len - o.sent) (s.readMax o)
      let s := if o.sent = 0 then s.haltCores else s
      (s.modOp o.id fun o => { o with sent := o.sent + n }).hostRead o.port o.fn o.part (fieldAt o.desc 8 8 + o.sent) n (.image o.id o.sent n)
    else if o.left != 0 then s
    else
      -- memory contents are requests of the queue's partition (07 R237)
      let r := s.forPart (some o.part) fun s => let r := s.loadImage (o.owner.getD s.ownerRule) o.image len; ((r.1, r.2.1), r.2.2)
      r.2.imageEnd o.id (if r.1.1 = 0 then 0 else 10) r.1.1 r.1.2

def State.opImageLoad (s : State) (op : Nat) : State :=
  match s.starts op 6 with
  | some o =>
    if !o.steward then s.modOp op fun o => o.finish 4 0 0
    else if fieldAt o.desc 0x10 8 = 0 then s.modOp op fun o => { o.finish 0 0 0 with zeroLen := true }
    else if s.model.isSome then s.modOp op fun o => o.finish 10 1 0
    else
      let n := fieldAt o.desc 0x10 8
      (s.modOp op fun o => { o with total := n, left := n }).beginDrain op
  | none =>
    match s.op? op with
    | some o => if s.isReady && o.opcode == 6 && o.stage == .running && s.drain.heldImage && s.drain.ops.contains op then s.imageNext o else s
    | none => s

def execImageLoad (op : Nat) (s : State) : Host.Outcome State Fault Refusal := s.inner (s.began op 6 (s.opImageLoad op))

def State.opImageUnload (s : State) (op : Nat) : State :=
  match s.starts op 7 with
  | none => s
  | some o =>
    if !o.steward then s.modOp op fun o => o.finish 4 0 0
    else if !s.liveSeqs.isEmpty then s.modOp op fun o => o.finish 11 0 0
    else s.beginDrain op

def execImageUnload (op : Nat) (s : State) : Host.Outcome State Fault Refusal := s.inner (s.began op 7 (s.opImageUnload op))

/-- At the boundary the model is unloaded, unless Laurel holds a sequence by now. -/
def State.unload (s : State) (op : Nat) : State :=
  if !s.liveSeqs.isEmpty then s.modOp op fun o => o.finish 11 0 0
  else (((s.haltCores).clearModel).bothPfs 6).modOp op fun o => o.finish 0 0 0

/-! ## COMPLETION_RECORD, MSIX_HOLDOFF_EXPIRE (10 R335 to R339) -/

/-- Status of an opcode, or of a LAUREL sub-operation, that is not in the tables: it ends when it may begin. -/
def HostOp.unknown (o : HostOp) (noModel : Bool) : Option (Nat × Nat) :=
  if 7 < o.opcode then some (2, 0)
  else if o.opcode = 4 && !(decide (1 ≤ fieldAt o.desc 8 1) && decide (fieldAt o.desc 8 1 ≤ 7)) then (if noModel then some (9, 0) else some (3, 1))
  else none

/-- An operation that the tables do not hold ends, once the selector grants it; a LAUREL request among them counts as refused (11 R390). -/
def State.endUnknown (s : State) (op : Nat) : State :=
  match s.op? op with
  | none => s
  | some o =>
    match (if s.mayBegin o then o.unknown s.laurel.decl.isNone else none) with
    | none => s
    | some r => s.selected o ((if o.opcode = 4 then s.laurelCount 5 1 else s).modOp op fun o => o.finish r.1 r.2 0)

/-- Has another operation of the queue ended before `o` and has no record yet (R337)? -/
def State.recordWaits (s : State) (o : HostOp) : Bool :=
  s.ops.any fun x => x.queue == o.queue && x.stage == .done && !x.silent && decide (x.rank < o.rank)

/-- An ended operation's record, in the order in which they ended; it waits for the PCIe regulator (R341). An operation whose port has been reset ends without one. -/
def State.recordOp (s : State) (op : Nat) : State :=
  let s := s.endUnknown op
  match s.op? op with
  | none => s
  | some o =>
    if o.stage != .done || !s.isReady then s
    else if o.silent then { s with ops := s.ops.filter (·.id != op) }
    else if s.recordWaits o then s
    else if (s.port o.port).up then (s.pcie o.part true 32).writeRecord o
    else s

def execCompletionRecord (op : Nat) (s : State) : Host.Outcome State Fault Refusal := s.inner (s.recordOp op)

/-- A message that waited for HOLDOFF is sent. -/
def State.holdoff (s : State) (q : Nat) : State :=
  let x := s.queue q
  match s.holderOf q, x.lastMsg with
  | some (p, f, _), some t =>
    if s.fnUp p f && x.msgWaits && decide (1000 * x.holdoff ≤ s.ts - t) then
      (s.setQueue q { x with msgWaits := false, lastMsg := some s.ts }).msix p f x.vec
    else s
  | _, _ => s

def execMsixHoldoffExpire (q : QueueId) (s : State) : Host.Outcome State Fault Refusal := s.inner (s.holdoff q.val)

end Sys2Proof.Machine
end

