-- ==== Sys2Proof/Machine/LaurelOps.lean ====
section
/-!
DEFINITION. Laurel's tables as its commands share them: extents and their handles, block tables, run lists, nodes of the prefix index, the ends of
sequences, errors in the tables (11 R360 to R369, R382 to R385; 15 R481).
-/

namespace Sys2Proof.Machine

/-! ## Sorting -/

/-- Put `x` in front of the first element that it precedes. -/
def insertBy (lt : α → α → Bool) (x : α) : List α → List α
  | [] => [x]
  | y :: r => if lt x y then x :: y :: r else y :: insertBy lt x r

/-- A stable sort. -/
def sortBy (lt : α → α → Bool) (l : List α) : List α := l.foldl (fun acc x => insertBy lt x acc) []

/-! ## Extents (11 R365 to R368) -/

/-- The pool of a tier: first page and pages; the spill pool is the board tier's. -/
def Decl.pool (d : Decl) (k : Nat) : Nat × Nat := if k = 8 then d.spill else d.pools.getD k (0, 0)

/-- The policy settings as served (11 R389, 13 R439): a boundary takes them. -/
def State.policyNow (s : State) : SMap Nat := (List.range 9).foldl (fun m j => odStore m 0x6000 (j + 1) (s.odNow 0x6000 (j + 1))) []

/-- A policy setting OD 0x6000.sub as of the last boundary (11 R389). -/
def State.policy (s : State) (sub : Nat) : Nat := odValue s.laurel.policy 0x6000 sub

/-- Is a sequence to end at the next boundary that finds it with no copy in progress? -/
def State.ending (s : State) (q : Nat) : Bool := let x := s.seq q; x.cancel || x.fault != 0 || x.removed

/-- Is the mover in the middle of an extent of a sequence (11 R362)? -/
def State.midMove (s : State) (q : Nat) : Bool := s.laurel.moves.any fun m => m.seq == q && m.dest.isSome

/-- The time as Laurel captures it (02 R61; log 94). -/
def State.laurelTs (s : State) : Nat := s.fabricTs 0x89

/-- Pages of a tier that directory entries use, and those that copies in progress go to (11 R382). -/
def State.usedPages (s : State) (k : Nat) : List Nat :=
  (s.laurel.kvdir.filter fun e => e.2.state != 0 && e.2.tier == k).map (·.2.page) ++
    s.laurel.moves.filterMap fun m => (m.dest.filter (·.1 == k)).map (·.2)

/-- The free pages of a tier's pool, lowest first (log 12); a page out of service is not given out (log 27). -/
def State.freePages (s : State) (d : Decl) (k : Nat) : List Nat :=
  let used := s.usedPages k
  let p := d.pool k
  ((List.range p.2).map (p.1 + ·)).filter fun i => !used.contains i && (s.tier k).page i == 0

/-- The first free page of a tier's pool. -/
def State.freePage (s : State) (d : Decl) (k : Nat) : Option Nat := (s.freePages d k).head?

/-- Free extents of a tier. -/
def State.freeCount (s : State) (d : Decl) (k : Nat) : Nat := (s.freePages d k).length

/-- The first free directory entry. -/
def State.freeExt (s : State) : Option Nat := (List.range 65536).find? fun i => (s.ext i).state == 0

/-- Extents that block `b` needs on this module (11 R358). -/
def Decl.needs (d : Decl) (b : Nat) : List Nat :=
  (List.range d.extPerBlock).filter fun e => d.slices.any fun x => x.extent == e && b % x.blockMod == x.blockRem

/-- Slices that hold block `b`. -/
def Decl.slicesAt (d : Decl) (b : Nat) : List Slice := d.slices.filter fun x => b % x.blockMod == x.blockRem

/-- Stack of an extent number. -/
def Decl.stackOf (d : Decl) (e : Nat) : Nat := d.extStack.getD e 0

/-- An extent is allocated: its directory index. -/
def State.allocExt (s : State) (d : Decl) (fmt e : Nat) : Option (Nat × State) :=
  match s.freePage d (d.stackOf e), s.freeExt with
  | some page, some i =>
    let g := s.laurel.genCtr
    let s := s.setExt i { state := 1, tier := d.stackOf e, page := page, fmt := fmt, refs := 1, indexed := false, ext := e, gen := g }
    some (i, s.modLaurel fun l => { l with genCtr := (g + 1) % 2 ^ 32 })
  | _, _ => none

/-- Age of a generation. -/
def State.genAge (s : State) (g : Nat) : Nat := (s.laurel.genCtr + 2 ^ 32 - g % 2 ^ 32) % 2 ^ 32

/-- An extent handle as read: directory index, generation, poison. -/
structure ExtRef where
  idx : Nat
  gen : Nat
  poison : Bool
  deriving DecidableEq, Repr

/-- May a handle be used (11 R367)? One whose word is poisoned may not. -/
def State.refOk (s : State) (h : ExtRef) : Bool :=
  !h.poison && (s.ext h.idx).state != 0 && (s.ext h.idx).gen == h.gen && decide (s.genAge h.gen < 2 ^ 31)

/-- Die address of a block table entry (11 R366). -/
def Decl.tabAt (d : Decl) (q b e : Nat) : Nat := d.blocktab + 8 * (q * d.maxBlocks * d.extPerBlock + b * d.extPerBlock + e)

/-- A handle of 8 bytes at a die address. -/
def State.readRef (s : State) (a : Nat) : ExtRef × State :=
  let r := s.readDie a 8
  let v := fieldAt r.1.bytes 0 8
  (⟨bits v 0 16, bits v 32 32, r.1.poison⟩, r.2)

def State.writeRef (s : State) (a i g : Nat) : State := (s.writeDie a (leBytes 8 (i + 2 ^ 32 * g)) false).2

/-- One reference to an extent goes; the last one frees it (11 R368). -/
def State.unref (s : State) (i : Nat) : State :=
  let x := s.ext i
  if x.refs ≤ 1 then s.setExt i { x with state := 0, refs := 0, indexed := false } else s.setExt i { x with refs := x.refs - 1 }

/-- The handles of a sequence's blocks below `n`, with their places: block, extent number, handle. -/
def State.refsOf (s : State) (d : Decl) (q n : Nat) : List (Nat × Nat × ExtRef) × State :=
  ((List.range n).flatMap fun b => (d.needs b).map fun e => (b, e)).foldl (fun (acc : List (Nat × Nat × ExtRef) × State) p =>
    let r := acc.2.readRef (d.tabAt q p.1 p.2)
    (acc.1 ++ [(p.1, p.2, r.1)], r.2)) ([], s)

/-! ## Run lists (11 R369, 08 R270) -/

/-- Die address of a sequence's run-list entry for block `b` of a slice. -/
def Decl.runAt (d : Decl) (q : Nat) (x : Slice) (b : Nat) : Nat :=
  tierBase (d.stackOf x.extent) + unitOff x.unit (32 * (d.rlBase + (q * d.rlSlots + x.rlSlot) * 128) + 16 * (b / x.blockMod))

/-- The 16 bytes of a run-list entry. -/
def Run.bytes (r : Run) : List Byte :=
  leBytes 8 (r.kAddr % 2 ^ 25 + 2 ^ 25 * (r.vAddr % 2 ^ 25) + 2 ^ 50 * (r.count % 128) + 2 ^ 57 * (r.kFmt % 16)) ++
    leBytes 8 (r.vFmt % 16 + 16 * (r.kExp % 256) + 2 ^ 12 * (r.vExp % 256) + 2 ^ 20 * (r.segment % 65536) + 2 ^ 36 * (r.first % 2 ^ 28))

/-- A slice's keys and values in a page, in units of 32 bytes. -/
def Slice.kAt (x : Slice) (page : Nat) : Nat := page * 1024 + x.kOff
def Slice.vAt (x : Slice) (page : Nat) : Nat := page * 1024 + x.vOff

/-- A whole run-list entry of a block that begins: the exponents in force now (05 R170). -/
def State.beginRun (s : State) (d : Decl) (q b count page fmt : Nat) (x : Slice) : State :=
  let slot (i : Nat) : Slot := SMap.get {} s.laurel.slots i
  let r : Run :=
    { kAddr := x.kAt page, vAddr := x.vAt page, count := count, kFmt := fmt, vFmt := fmt, kExp := (slot x.kSlot).exp.toNat
      vExp := (slot x.vSlot).exp.toNat, segment := q + 1, first := 64 * b }
  (s.writeDie (d.runAt q x b) r.bytes false).2

/-! ## Nodes of the prefix index (11 R383, R384) -/

def Decl.nodeAt (d : Decl) (n : Nat) : Nat :=
  if n < d.stackNodes then d.nodeBase + n * d.nodeBytes else d.boardNodeBase + (n - d.stackNodes) * d.nodeBytes

/-- A field of a node: value, poison. -/
def State.nodeGet (s : State) (d : Decl) (n off len : Nat) : Nat × Bool × State :=
  let r := s.readDie (d.nodeAt n + off) len
  (leNat r.1.bytes, r.1.poison, r.2)

def State.nodePut (s : State) (d : Decl) (n off len v : Nat) : State := (s.writeDie (d.nodeAt n + off) (leBytes len v) false).2

/-- CHILDREN (0x0A) or SHARERS (0x0C) of a node goes up or down by one. -/
def State.nodeCount (s : State) (d : Decl) (n off : Nat) (up : Bool) : State :=
  let r := s.nodeGet d n off 2
  r.2.2.nodePut d n off 2 (if up then r.1 + 1 else r.1 - 1)

/-- No node. -/
def noNode : Nat := 0xFFFFFFFF

/-- A removed bucket entry. -/
def goneNode : Nat := 0xFFFFFFFE

/-- The partition byte of a key. -/
def State.keyPart (s : State) (part : Nat) : Nat := if s.policy 7 = 1 then 0xFF else part

/-- Key of a block (11 R383). -/
def blockKey (part parent : Nat) (toks : List Byte) : Nat := crc32c (leBytes 1 part ++ leBytes 4 parent ++ toks)

/-- Bucket number `i` places after a key's own. -/
def Decl.bucketAt (d : Decl) (key i : Nat) : Nat := d.bucketBase + 4 * ((key + i) % 2 ^ d.bucketsLog2)

/-- Probe for a node of equal partition byte, parent and tokens: the walk over up to 16 buckets ends at an empty one. -/
def State.probeNode (s : State) (d : Decl) (key part parent : Nat) (toks : List Byte) : Nat → Nat → Option Nat × State
  | 0, _ => (none, s)
  | fuel + 1, i =>
    let r := s.readDie (d.bucketAt key i) 4
    let n := leNat r.1.bytes
    let s := r.2
    if r.1.poison || n = goneNode then s.probeNode d key part parent toks fuel (i + 1)
    else if n = noNode then (none, s)
    else if d.stackNodes + d.boardNodes ≤ n then s.probeNode d key part parent toks fuel (i + 1)
    else
      let h := s.readDie (d.nodeAt n) 0x140
      let b := h.1.bytes
      if !h.1.poison && fieldAt b 8 1 == part && (fieldAt b 9 1).testBit 0 && fieldAt b 4 4 == parent && (b.drop 0x40).take 256 == toks then (some n, h.2)
      else h.2.probeNode d key part parent toks fuel (i + 1)

/-- The bucket entry that holds node `n`, or the first one free. -/
def State.findBucket (s : State) (d : Decl) (key : Nat) (want : Nat → Bool) : Nat → Nat → Option Nat × State
  | 0, _ => (none, s)
  | fuel + 1, i =>
    let r := s.readDie (d.bucketAt key i) 4
    if !r.1.poison && want (leNat r.1.bytes) then (some (d.bucketAt key i), r.2) else r.2.findBucket d key want fuel (i + 1)

/-- The extent handles of a node for the extents of its block. -/
def State.nodeRefs (s : State) (d : Decl) (n b : Nat) : List (Nat × ExtRef) × State :=
  (d.needs b).foldl (fun (acc : List (Nat × ExtRef) × State) e =>
    let r := acc.2.readRef (d.nodeAt n + 0x140 + 8 * e)
    (acc.1 ++ [(e, r.1)], r.2)) ([], s)

/-- An extent loses the reference of the index. -/
def State.unindex (s : State) (h : ExtRef) : State :=
  if s.refOk h then (s.setExt h.idx { s.ext h.idx with indexed := false }).unref h.idx else s

/-- A node leaves the index: bucket entry, VALID, its parent's CHILDREN, its extents' index references (11 R384). -/
def State.dropNode (s : State) (d : Decl) (n : Nat) : State :=
  let h := s.readDie (d.nodeAt n) 0x40
  let b := h.1.bytes
  let k := fieldAt b 0 4
  let parent := fieldAt b 4 4
  let f := h.2.findBucket d k (· == n) 16 0
  let s := (match f.1 with | some a => (f.2.writeDie a (leBytes 4 goneNode) false).2 | none => f.2)
  let s := s.nodePut d n 9 1 0
  let s := if parent = noNode then s else s.nodeCount d parent 0x0A false
  let r := s.nodeRefs d n (fieldAt b 0x18 2)
  let s := r.1.foldl (fun s x => s.unindex x.2) r.2
  -- blocks above a removed node are not inserted any more
  let s := (s.liveSeqs.filter fun q => (s.seq q).chain.contains n).foldl (fun s q => s.modSeq q fun x => { x with stopInsert := true }) s
  s.modLaurel fun l => { l with nodes := l.nodes.filter (· != n), building := l.building.filter (·.1 != n) }

/-- May a node be evicted: CHILDREN 0, SHARERS 0, findable; with its LAST_USE. -/
def State.evictable (s : State) (d : Decl) (n : Nat) : Option Nat :=
  let h := s.readDie (d.nodeAt n) 0x40
  let b := h.1.bytes
  if !h.1.poison && fieldAt b 0x0A 2 == 0 && fieldAt b 0x0C 2 == 0 && !(s.laurel.building.any (·.1 == n)) then some (fieldAt b 0x10 8) else none

/-- Does a node hold an extent in stack `k`? -/
def State.nodeIn (s : State) (d : Decl) (k n : Nat) : Bool :=
  let b := (s.nodeGet d n 0x18 2).1
  (s.nodeRefs d n b).1.any fun x => s.refOk x.2 && (s.ext x.2.idx).tier == k

/-- Evict the node of the least recent use among those that `want` picks: whether one went. -/
def State.evictOne (s : State) (d : Decl) (want : Nat → Bool) : Bool × State :=
  let c := (s.laurel.nodes.filter want).filterMap fun n => (s.evictable d n).map fun t => (t, n)
  match sortBy (fun x y => decide (x.1 < y.1) || (x.1 == y.1 && decide (x.2 < y.2))) c with
  | [] => (false, s)
  | x :: _ => (true, (s.dropNode d x.2).laurelCount 0x11 1)

/-! ## The ends of sequences (11 R362, R368, R385, R388) -/

/-- What a sequence holds is released once: its extents, and its share of nodes. -/
def State.releaseSeq (s : State) (q : Nat) : State :=
  match s.laurel.decl with
  | none => s
  | some d =>
    let x := s.seq q
    let s := s.onBehalf (some x.part) fun s =>
      let r := s.refsOf d q x.blocks
      let s := r.1.foldl (fun s h => if s.refOk h.2.2 then s.unref h.2.2.idx else s) r.2
      (x.chain.take x.shared).foldl (fun s n => s.nodeCount d n 0x0C false) s
    let s := s.modSeq q fun x => { x with blocks := 0, chain := [] }
    s.modLaurel fun l => { l with walks := l.walks.filter (·.seq != q), moves := l.moves.filter (·.seq != q) }

/-- Enter a state. -/
def State.goState (s : State) (q st : Nat) : State := s.modSeq q fun x => { x with state := st, since := s.laurelTs }

/-- A flag of the sequence's next batch entry. -/
def State.noteSeq (s : State) (q bit : Nat) : State := s.modSeq q fun x => { x with note := x.note ||| bit, noted := true }

/-- A sequence enters ENDED; what it holds is released later in the boundary (11 R371). -/
def State.endSeq (s : State) (q reason fault : Nat) : State :=
  let s := s.modLaurel fun l => { l with walks := l.walks.filter (·.seq != q), moves := l.moves.filter (·.seq != q) }
  let s := if reason = 5 then s.post { code := 0x43, source := 0x89, args := [(s.seq q).handle q, fault] } else s
  let s := s.modSeq q fun x => { x with endReason := reason, fault := fault, row := none }
  (s.goState q 8).noteSeq q 1

/-- An entry returns to FREE: its generation increments (11 R360). -/
def State.freeSeq (s : State) (q : Nat) : State :=
  let g := ((s.seq q).gen + 1) % 2 ^ 20
  (s.setSeq q { gen := g }).modLaurel fun l => { l with freed := l.freed ++ [q] }

/-! ## Errors in Laurel's tables (15 R478, R481) -/

/-- An uncorrectable word, found at a boundary. A sequence entry whose HANDLE word is lost is freed with no batch entry. -/
def State.laurelLost (s : State) (table idx : Nat) (handleLost : Bool) : State :=
  if table = 2 && handleLost then
    let s := (s.sramUncorr 0x89 11 (laurelAt 2 idx)).post { code := 0x46, source := 0x89, args := [2, idx] }
    if (s.seq idx).state = 0 then s else (s.releaseSeq idx).freeSeq idx
  else s.laurelHit table idx

end Sys2Proof.Machine
end

