-- ==== Sys2Proof/Machine/LaurelReq.lean ====
section
/-!
DEFINITION. Meanings of the commands of Laurel that do not wait for a boundary: its requests, the prefix walk, insertion of nodes, the extent mover,
delivery of batches, folds, fault notices, the launch of a step's kernels, restored weight pages (05 R168; 08 R251; 11 R363 to R388).
-/

namespace Sys2Proof.Machine

/-! ## Requests (11 R363, R364) -/

/-- A LAUREL request of sub-operation `sub` begins; without a declaration it ends with NO_MODEL. -/
def State.request (s : State) (op sub : Nat) (f : HostOp → Decl → State) : State :=
  match s.starts op 4 with
  | none => s
  | some o =>
    if fieldAt o.desc 8 1 != sub then s
    else
      s.selected o (match s.laurel.decl with
        | none => (s.laurelCount 5 1).modOp op fun o => o.finish 9 0 0
        | some d => f o d)

/-- A request is refused with a reason. -/
def State.refuseOp (s : State) (op reason : Nat) : State := (s.laurelCount 5 1).modOp op fun o => o.finish 3 reason 0

/-- A request is accepted. -/
def State.acceptOp (s : State) (op : Nat) : State := s.modOp op fun o => o.finish 0 0 0

/-- A request that is empty (01 R10). -/
def State.emptyOp (s : State) (op : Nat) : State := s.modOp op fun o => { o.finish 0 0 0 with zeroLen := true }

/-- The sequence of a request's handle: STALE_HANDLE, then NOT_OWNER. -/
def State.byHandle (s : State) (o : HostOp) (f : Nat → Seq → State) : State :=
  let h := fieldAt o.desc 0x0C 4
  let q := h % 4096
  let x := s.seq q
  if x.state = 0 || x.handle q != h then s.refuseOp o.id 2
  else if x.part != o.part then s.refuseOp o.id 3
  else f q x

/-- The reason for which an ADMIT is refused, 0 for none, in the order of R363's table. -/
def State.admitReason (s : State) (o : HostOp) (d : Decl) : Nat :=
  let lc := (fieldAt o.desc 9 1).testBit 0
  let fmt := fieldAt o.desc 0x0A 1
  let goal := fieldAt o.desc 0x0C 4
  let addr := fieldAt o.desc 0x10 8
  let n := fieldAt o.desc 0x18 4
  if 4096 ≤ s.laurel.fresh && s.laurel.freed.isEmpty then 4
  else if 64 * d.maxBlocks ≤ n then 5
  else if fmt != 0 && (!mvFmt fmt || decide (elemBits d.kvFmt < elemBits fmt)) then 6
  else if lc && (decide (goal < 100) || decide (10000000 < goal)) then 7
  else if s.laurel.serving = 3 then 0x0B
  else
    match placeOf addr, mappedRange addr with
    | .tier _ _, some r => if addr + 4 * n ≤ r.2 then 0 else 0x0D
    | _, _ => 0x0D

/-- The entry that has been FREE longest is taken (11 R360; log 12). -/
def State.takeSeq (s : State) : Nat × State :=
  let l := s.laurel
  if l.fresh < 4096 then (l.fresh, { s with laurel := { l with fresh := l.fresh + 1 } })
  else (l.freed.headD 0, { s with laurel := { l with freed := l.freed.drop 1 } })

/-- A sequence as an ADMIT makes it. -/
def admitted (o : HostOp) (d : Decl) (gen ts step : Nat) : Seq :=
  let flags := fieldAt o.desc 0x0B 1
  let lc := (fieldAt o.desc 9 1).testBit 0
  let fmt := fieldAt o.desc 0x0A 1
  let seed := fieldAt o.desc 0x20 8
  { state := if flags.testBit 0 then 2 else 1, lc := lc, held := flags.testBit 2, noReuse := flags.testBit 0, noInsert := flags.testBit 1
    part := o.part, kvFmt := if fmt = 0 then d.kvFmt else fmt, gen := gen, promptLen := fieldAt o.desc 0x18 4
    maxNew := fieldAt o.desc 0x1C 4, promptAddr := fieldAt o.desc 0x10 8, seed := if seed = 0 then ts else seed
    temp := fieldAt o.desc 0x28 4, topK := fieldAt o.desc 0x2C 2, stop := fieldAt o.desc 0x30 4
    goal := if lc then fieldAt o.desc 0x0C 4 else 0, since := ts, admitStep := step }

/-- ADMIT. -/
def State.admitSeq (s : State) (o : HostOp) (d : Decl) : State :=
  if fieldAt o.desc 0x18 4 = 0 || fieldAt o.desc 0x1C 4 = 0 then s.emptyOp o.id
  else
    let r := s.admitReason o d
    if r != 0 then s.refuseOp o.id r
    else
      let t := s.takeSeq
      let q := t.1
      let x := admitted o d (t.2.seq q).gen s.laurelTs s.laurel.step.num
      let s := (t.2.setSeq q x).laurelCount 4 1
      let s := if x.state = 1 then s.modLaurel fun l => { l with walks := l.walks ++ [⟨q, 0, noNode⟩] } else s.wantBoundary
      ((s.pcie o.part true 8).emit (.hostWrite o.port (fieldAt o.desc 0x38 8) (leBytes 4 (x.handle q) ++ zeros 4) false)).acceptOp o.id

def execAdmitSequence (op : Nat) (s : State) : Host.Outcome State Fault Refusal := s.inner (s.request op 1 fun o d => s.admitSeq o d)

/-- CANCEL: accepted once; it takes effect at the next boundary (11 R364, R380). -/
def State.cancel (s : State) (o : HostOp) : State :=
  s.byHandle o fun q x =>
    if x.state = 8 then s.refuseOp o.id 0x0A
    else ((s.setSeq q { x with cancel := true }).wantBoundary).acceptOp o.id

def execCancel (op : Nat) (s : State) : Host.Outcome State Fault Refusal := s.inner (s.request op 2 fun o _ => s.cancel o)

/-- DRAFT (11 R378): a COUNT past 7 reads as 7; one of 0 is empty whatever its handle (01 R10). -/
def State.draft (s : State) (o : HostOp) : State :=
  let n := min 7 (fieldAt o.desc 0x12 1)
  if n = 0 then s.emptyOp o.id
  else s.byHandle o fun q x =>
    if x.state = 8 then s.refuseOp o.id 0x0A
    else if !(x.state == 2 || x.state == 3) || s.policy 3 == 0 then s.refuseOp o.id 8
    else if fieldAt o.desc 0x10 2 != x.specEpoch then (s.laurelCount 0x10 1).refuseOp o.id 9
    else
      let s := s.laurelCount 0x10 x.draftCount
      let s := s.setSeq q { x with draftCount := n, draftEpoch := x.specEpoch, drafts := (List.range n).map fun i => fieldAt o.desc (0x14 + 4 * i) 4 }
      (s.wantBoundary).acceptOp o.id

def execDraft (op : Nat) (s : State) : Host.Outcome State Fault Refusal := s.inner (s.request op 3 fun o _ => s.draft o)

/-- RECEIVE: the buffer waits for a batch of its partition, in the order of the descriptors' fetches (11 R376). -/
def State.receiveBuf (s : State) (o : HostOp) : State :=
  let addr := fieldAt o.desc 0x10 8
  let n := fieldAt o.desc 0x18 4
  if n = 0 then s.emptyOp o.id
  else if n < 16384 || addr % 64 != 0 then s.refuseOp o.id 0x0C
  else
    (s.modOp o.id fun y => { y with stage := .running }).modLaurel fun l =>
      { l with recv := SMap.mod [] l.recv o.part fun r => insertBy (fun x y => decide (x.op < y.op)) ⟨o.id, addr, n⟩ r }

def execReceive (op : Nat) (s : State) : Host.Outcome State Fault Refusal := s.inner (s.request op 4 fun o _ => s.receiveBuf o)

/-- PAUSE: HELD is set, and the sequence pauses at the next boundary (11 R381). -/
def State.pauseSeq (s : State) (o : HostOp) : State :=
  s.byHandle o fun q x =>
    if x.state = 8 then s.refuseOp o.id 0x0A
    else ((s.setSeq q { x with held := true }).wantBoundary).acceptOp o.id

def execPauseSequence (op : Nat) (s : State) : Host.Outcome State Fault Refusal := s.inner (s.request op 5 fun o _ => s.pauseSeq o)

/-- RESUME: HELD is cleared, and the sequence leaves PAUSED or SPILLED at the next boundary. -/
def State.resumeSeq (s : State) (o : HostOp) : State :=
  s.byHandle o fun q x =>
    if x.state = 8 then s.refuseOp o.id 0x0A
    else if !x.held then s.refuseOp o.id 8
    else ((s.setSeq q { x with held := false, autoPaused := false }).wantBoundary).acceptOp o.id

def execResumeSequence (op : Nat) (s : State) : Host.Outcome State Fault Refusal := s.inner (s.request op 6 fun o _ => s.resumeSeq o)

/-- QUERY: the sequence's entry is written to the host. -/
def State.querySeq (s : State) (o : HostOp) : State :=
  s.byHandle o fun q x => ((s.pcie o.part true (x.bytes q).length).emit (.hostWrite o.port (fieldAt o.desc 0x10 8) (x.bytes q) false)).acceptOp o.id

def execQuery (op : Nat) (s : State) : Host.Outcome State Fault Refusal := s.inner (s.request op 7 fun o _ => s.querySeq o)

/-! ## BERYL_WALK (11 R383) -/

/-- A walk ends: the sequence is READY. -/
def State.walkDone (s : State) (q : Nat) : State :=
  ((s.goState q 2).modLaurel fun l => { l with walks := l.walks.filter (·.seq != q) }).wantBoundary

/-- The node's run image is copied into the sequence's run lists, with its own segment. -/
def State.copyRuns (s : State) (d : Decl) (q n b : Nat) : State :=
  d.slices.zipIdx.foldl (fun s x =>
    if b % x.1.blockMod != x.1.blockRem then s
    else
      let r := s.readDie (d.nodeAt n + 0x1C0 + 16 * x.2) 16
      let w1 := setBits (fieldAt r.1.bytes 8 8) 20 16 (q + 1)
      (r.2.writeDie (d.runAt q x.1 b) (r.1.bytes.take 8 ++ leBytes 8 w1) r.1.poison).2) s

/-- Block `b` is taken from node `n`: the node's count and the extents' references rise, handles and run image are copied. -/
def State.takeNode (s : State) (d : Decl) (q n b : Nat) (hs : List (Nat × ExtRef)) : State :=
  let s := (s.nodeCount d n 0x0C true).nodePut d n 0x10 8 s.laurel.step.num
  let s := hs.foldl (fun s h =>
    let x := s.ext h.2.idx
    (s.setExt h.2.idx { x with refs := x.refs + 1 }).writeRef (d.tabAt q b h.1) h.2.idx h.2.gen) s
  let s := (s.copyRuns d q n b).laurelCount 0x0A 1
  let s := s.modSeq q fun x => { x with chain := x.chain ++ [n], shared := x.shared + 1, blocks := x.blocks + 1, len := 64 * (x.shared + 1) }
  s.modLaurel fun l => { l with walks := l.walks.map fun w => if w.seq = q then ⟨q, b + 1, n⟩ else w }

/-- One block of a prompt is looked up. A node outside the window of R383 ends the walk; a refused handle of one within it ends the sequence (11 R367). -/
def State.walkBlock (s : State) (d : Decl) (q b parent : Nat) : State :=
  let x := s.seq q
  if (x.promptLen - 1) / 64 ≤ b then s.walkDone q
  else
    let t := s.readDie (x.promptAddr + 256 * b) 256
    if t.1.poison then t.2.walkDone q
    else
      let part := t.2.keyPart x.part
      let r := t.2.probeNode d (blockKey part parent t.1.bytes) part parent t.1.bytes 16 0
      match r.1 with
      | none => r.2.walkDone q
      | some n =>
        let h := r.2.nodeRefs d n b
        if h.1.any fun e => e.2.poison || decide (2 ^ 30 ≤ h.2.genAge e.2.gen) then h.2.walkDone q
        else if h.1.any fun e => !h.2.refOk e.2 then
          ((h.2.faultSeq q 4).modLaurel fun l => { l with walks := l.walks.filter (·.seq != q) }).wantBoundary
        else h.2.takeNode d q n b h.1

/-- The walk of a sequence goes one block further; walks wait while a drain lasts (04 R141). -/
def State.walk (s : State) (q : Nat) : State :=
  match s.laurel.walks.find? (·.seq == q), s.laurel.decl with
  | some w, some d =>
    if s.isReady && !s.drain.active then s.onBehalf (some (s.seq q).part) fun s => s.walkBlock d q w.block w.parent else s
  | _, _ => s

def execBerylWalk (q : SeqId) (s : State) : Host.Outcome State Fault Refusal := s.inner (s.walk q.val)

/-! ## NODE_INSERT (11 R384) -/

/-- Tokens of block `b` of a sequence: the prompt's from memory, then those generated. -/
def State.blockTokens (s : State) (x : Seq) (b : Nat) : Piece × State :=
  let n := min 64 (x.promptLen - 64 * b)
  let r := s.readDie (x.promptAddr + 256 * b) (4 * n)
  let more := ((x.toks.drop (64 * b + n - x.promptLen)).take (64 - n)).flatMap fun t => leBytes 4 t
  (⟨r.1.bytes ++ more, r.1.poison⟩, r.2)

/-- Is block `b` of a sequence due for insertion? -/
def State.insertDue (s : State) (q : Nat) : Bool :=
  let x := s.seq q
  let b := x.chain.length
  decide (2 ≤ x.state) && decide (x.state ≤ 7) && !x.noInsert && !x.stopInsert && decide (64 * (b + 1) ≤ x.len) && decide (b < x.blocks) && decide (x.shared ≤ b)

/-- The lowest node number that is free. -/
def State.freeNode (s : State) (d : Decl) : Option Nat := (List.range (d.stackNodes + d.boardNodes)).find? fun n => !s.laurel.nodes.contains n

/-- The run image of block `b` from the sequence's run lists, one entry per slice; zero for a slice that does not hold the block. -/
def State.runImage (s : State) (d : Decl) (q b : Nat) : Piece × State :=
  d.slices.foldl (fun (acc : Piece × State) x =>
    if b % x.blockMod != x.blockRem then (⟨acc.1.bytes ++ zeros 16, acc.1.poison⟩, acc.2)
    else
      let r := acc.2.readDie (d.runAt q x b) 16
      (⟨acc.1.bytes ++ padTo 16 r.1.bytes, acc.1.poison || r.1.poison⟩, r.2)) ({}, s)

/-- A node is written: block `b` of sequence `q` below `parent`. -/
def State.buildNode (s : State) (d : Decl) (q n b parent part : Nat) (toks : List Byte) (hs : List (Nat × Nat × ExtRef)) : State :=
  let key := blockKey part parent toks
  let handles := (List.range 16).flatMap fun e =>
    (match hs.find? (·.2.1 == e) with | some h => leBytes 8 (h.2.2.idx + 2 ^ 32 * h.2.2.gen) | none => zeros 8)
  let img := s.runImage d q b
  let head := leBytes 4 key ++ leBytes 4 parent ++ leBytes 1 part ++ leBytes 1 1 ++ leBytes 2 0 ++ leBytes 2 0 ++ zeros 2
    ++ leBytes 8 s.laurel.step.num ++ leBytes 2 b ++ zeros 38
  let s := (img.2.writeDie (d.nodeAt n) (head ++ toks ++ handles) false).2
  let s := (s.writeDie (d.nodeAt n + 0x1C0) img.1.bytes img.1.poison).2
  let s := if parent = noNode then s else s.nodeCount d parent 0x0A true
  let s := hs.foldl (fun s h => let x := s.ext h.2.2.idx; s.setExt h.2.2.idx { x with indexed := true, refs := x.refs + 1 }) s
  let s := s.modSeq q fun x => { x with chain := x.chain ++ [n] }
  s.modLaurel fun l => { l with nodes := l.nodes ++ [n], building := l.building ++ [(n, key)] }

/-- A node of equal key, parent and tokens among those that are not findable yet. -/
def State.inBuilding (s : State) (d : Decl) (key part parent : Nat) (toks : List Byte) : Option Nat :=
  (s.laurel.building.find? fun b =>
    let h := (s.readDie (d.nodeAt b.1) 0x140).1.bytes
    b.2 == key && fieldAt h 8 1 == part && fieldAt h 4 4 == parent && (h.drop 0x40).take 256 == toks).map (·.1)

/-- Insertion is skipped and counted; later blocks of the sequence are not inserted. -/
def State.skipInsert (s : State) (q : Nat) : State := (s.modSeq q fun x => { x with stopInsert := true }).laurelCount 0x12 1

/-- The next block of a sequence enters the index; where the pool is full the next boundary evicts first. -/
def State.insertBlock (s : State) (d : Decl) (q : Nat) : State :=
  let x := s.seq q
  let b := x.chain.length
  let parent := (x.chain.getLast?).getD noNode
  let t := s.blockTokens x b
  if t.1.poison then t.2.modSeq q fun x => { x with stopInsert := true }
  else
    let part := t.2.keyPart x.part
    let toks := t.1.bytes
    let key := blockKey part parent toks
    let r := t.2.probeNode d key part parent toks 16 0
    let same := (match r.1 with | some n => some n | none => r.2.inBuilding d key part parent toks)
    match same with
    | some n => r.2.modSeq q fun x => { x with chain := x.chain ++ [n] }
    | none =>
      let h := r.2.refsOf d q (b + 1)
      let hs := h.1.filter (·.1 == b)
      if hs.any fun e => !h.2.refOk e.2.2 then (h.2.faultSeq q 4).wantBoundary
      else
        match h.2.freeNode d with
        | some n => h.2.buildNode d q n b parent part toks hs
        | none => if h.2.laurel.nodes.any fun n => (h.2.evictable d n).isSome then h.2.wantBoundary else h.2.skipInsert q

def State.insertNode (s : State) (q : Nat) : State :=
  match s.laurel.decl with
  | some d => if s.isReady && !s.drain.reached && s.insertDue q then s.onBehalf (some (s.seq q).part) fun s => s.insertBlock d q else s
  | none => s

def execNodeInsert (q : SeqId) (s : State) : Host.Outcome State Fault Refusal := s.inner (s.insertNode q.val)

/-! ## EXTENT_SPILL, EXTENT_RESTORE (11 R382) -/

/-- Bytes of a page. -/
def pageBytes : Nat := 0x200000

/-- Bucket of a tier's page: the stack's, or its board half's (07 R238). -/
def pageBucket (k page : Nat) : Nat := if k < 8 then k else if page < 0x3000 then 16 else 17

/-- A page is copied grain by grain; poison is copied as poison. -/
def State.copyPage (s : State) (src dst : Nat) : State :=
  (List.range 32768).foldl (fun (s : State) i =>
    let r := s.readDie (src + 64 * i) 64
    (r.2.writeDie (dst + 64 * i) r.1.bytes r.1.poison).2) s

/-- Die address of a page. -/
def pageAddr (k page : Nat) : Nat := tierBase k + page * 0x200000

/-- The mover's list for a sequence becomes `left`, its first extent not begun. -/
def State.setMove (s : State) (q : Nat) (left : List (Nat × Nat)) : State :=
  s.modLaurel fun l => { l with moves := l.moves.map fun m => if m.seq = q then { m with left := left, dest := none, grain := 0 } else m }

/-- The copy of a sequence's first extent stands at grain `i` of its way to `dest`. -/
def State.moveAt (s : State) (q : Nat) (dest : Nat × Nat) (i : Nat) : State :=
  s.modLaurel fun l => { l with moves := l.moves.map fun m => if m.seq = q then { m with dest := some dest, grain := i } else m }

/-- The mover is done with a sequence. -/
def State.moveDone (s : State) (q st : Nat) : State :=
  ((s.goState q st).modLaurel fun l => { l with moves := l.moves.filter (·.seq != q) }).wantBoundary

/-- The mover copies `n` more grains, from grain `i` on, each charged to both buckets of the partition, as long as neither is empty (07 R239): how many are left, and
whether a copy has met poison. -/
def State.moveGrains (s : State) (part : Nat) (src dst : Nat × Nat) : Nat → Nat → Nat × Bool × State
  | 0, _ => (0, false, s)
  | n + 1, i =>
    let a := pageBucket src.1 src.2
    let b := pageBucket dst.1 dst.2
    if !s.mayPass (some part) a || !s.mayPass (some part) b then (n + 1, false, s)
    else
      let r := ((s.charge part a 64).charge part b 64).readDie (pageAddr src.1 src.2 + 64 * i) 64
      let w := r.2.writeDie (pageAddr dst.1 dst.2 + 64 * i) r.1.bytes r.1.poison
      if w.1 && !r.1.poison then w.2.moveGrains part src dst n (i + 1) else (0, true, w.2)

/-- Extent `i` goes on its way to page `page` of tier `k`, from grain `from_` on; it arrives with state `st`, or is lost. -/
def State.moveExt (s : State) (q i k page from_ during st sub : Nat) (rest : List (Nat × Nat)) : State :=
  let x := s.ext i
  let r := s.moveGrains (s.seq q).part (x.tier, x.page) (k, page) (32768 - from_) from_
  let s := r.2.2
  let done (s : State) : State := let s := s.setMove q rest; if s.ending q then s.wantBoundary else s
  if r.2.1 then done (s.setExt i { x with state := 4 })
  else if r.1 = 0 then done ((s.setExt i { x with state := st, tier := k, page := page }).laurelCount sub 1)
  else (s.setExt i { x with state := during }).moveAt q (k, page) (32768 - r.1)

/-- The extent handle at the head of a mover's list, read for the sequence's partition. -/
def State.moveRef (s : State) (d : Decl) (q b e : Nat) : ExtRef × State :=
  s.forPart (some (s.seq q).part) fun s => s.readRef (d.tabAt q b e)

/-- The mover copies one extent at a time (11 R382), and begins none of a sequence that is to end (R362). -/
def State.mayMove (s : State) (q : Nat) (m : Move) : Bool := m.dest.isSome || (!s.ending q && !s.laurel.moves.any (·.dest.isSome))

/-- The mover takes a sequence whose spill has been asked for: it enters SPILLING, with its extents that are its own alone (11 R362, R382). -/
def State.takeSpill (s : State) (d : Decl) (q : Nat) : State :=
  let r := s.forPart (some (s.seq q).part) fun s => s.refsOf d q (s.seq q).blocks
  let left := (r.1.filter fun h => r.2.refOk h.2.2 && (r.2.ext h.2.2.idx).refs == 1 && !(r.2.ext h.2.2.idx).indexed).map fun h => (h.1, h.2.1)
  (r.2.goState q 5).setMove q left

/-- One extent of a spill: those shared, indexed or moved already stay where they are; an empty spill pool ends the spill. -/
def State.spillOne (s : State) (d : Decl) (q : Nat) (m : Move) : State :=
  match m.left with
  | [] => s.moveDone q 6
  | (b, e) :: r =>
    let h := s.moveRef d q b e
    let s := h.2
    if !s.refOk h.1 then (s.faultSeq q 4).setMove q r
    else
      let x := s.ext h.1.idx
      match m.dest with
      | some (k, p) => s.moveExt q h.1.idx k p m.grain 2 3 8 r
      | none =>
        if x.state != 1 || x.refs != 1 || x.indexed then s.setMove q r
        else
          match s.freePage d 8 with
          | none => s.moveDone q 6
          | some p => s.moveExt q h.1.idx 8 p 0 2 3 8 r

def State.spill (s : State) (q : Nat) : State :=
  match s.laurel.decl, s.laurel.moves.find? (·.seq == q) with
  | some d, some m => if s.isReady && !s.drain.reached && !m.restore && s.mayMove q m then
      (if (s.seq q).state = 4 then s.takeSpill d q else s.spillOne d q m) else s
  | _, _ => s

def execExtentSpill (q : SeqId) (s : State) : Host.Outcome State Fault Refusal := s.inner (s.spill q.val)

/-- The addresses of a sequence's run-list entries are rewritten; their exponents stay. -/
def State.rewriteRuns (s : State) (d : Decl) (q : Nat) : State :=
  s.onBehalf (some (s.seq q).part) fun s =>
  let r := s.refsOf d q (s.seq q).blocks
  r.1.foldl (fun s h =>
    let page := (s.ext h.2.2.idx).page
    ((d.slicesAt h.1).filter fun x => x.extent == h.2.1).foldl (fun s x =>
      let a := d.runAt q x h.1
      let o := s.readDie a 16
      let w0 := setBits (setBits (fieldAt o.1.bytes 0 8) 0 25 (x.kAt page)) 25 25 (x.vAt page)
      (o.2.writeDie a (leBytes 8 w0 ++ (o.1.bytes.drop 8).take 8) o.1.poison).2) s) r.2

/-- One extent of a restore; without a free page of its stack it waits. -/
def State.restoreOne (s : State) (d : Decl) (q : Nat) (m : Move) : State :=
  match m.left with
  | [] => (s.rewriteRuns d q).moveDone q 2
  | (b, e) :: r =>
    let h := s.moveRef d q b e
    let s := h.2
    if !s.refOk h.1 then (s.faultSeq q 4).setMove q r
    else if (s.ext h.1.idx).state != 3 then s.setMove q r
    else
      match m.dest with
      | some (k, p) => s.moveExt q h.1.idx k p m.grain 3 1 9 r
      | none =>
        match s.freePage d (d.stackOf e) with
        | none => s
        | some p => s.moveExt q h.1.idx (d.stackOf e) p 0 3 1 9 r

def State.restore (s : State) (q : Nat) : State :=
  match s.laurel.decl, s.laurel.moves.find? (·.seq == q) with
  | some d, some m => if s.isReady && !s.drain.reached && m.restore && s.mayMove q m then s.restoreOne d q m else s
  | _, _ => s

def execExtentRestore (q : SeqId) (s : State) : Host.Outcome State Fault Refusal := s.inner (s.restore q.val)

/-! ## BATCH_DELIVER (11 R376, R377) -/

/-- The bytes of a batch. -/
def Batch.bytes (b : Batch) (part : Nat) : List Byte :=
  let n := b.entries.length
  leBytes 8 b.step ++ leBytes 1 part ++ leBytes 1 b.flags ++ leBytes 2 n ++ leBytes 4 (64 + 48 * n) ++ leBytes 8 b.quiet ++ leBytes 8 (b.release.getD 0)
    ++ zeros 32 ++ b.entries.flatMap fun e => e.2.2

/-- The oldest batch of a partition, its boundary released, fills its oldest buffer; sequences whose end it delivers return to FREE. -/
def State.deliverBatch (s : State) (p : Nat) : State :=
  let l := s.laurel
  match SMap.get [] l.recv p, SMap.get [] l.batches p with
  | r :: rs, b :: bs =>
    if b.release.isNone || s.ops.any (fun o => o.stage == .fetched && o.opcode == 4 && fieldAt o.desc 8 1 == 4 && o.part == p && decide (o.id < r.op)) then s
    else
    let data := b.bytes p
    let at_ := ((s.op? r.op).map fun o => (o.port, o.fn)).getD (false, 0)
    let s := s.modLaurel fun l => { l with recv := SMap.set [] l.recv p rs, batches := SMap.set [] l.batches p bs }
    let s := (s.pcie p true data.length).hostOut at_.1 at_.2 r.addr data false
    let s := s.modOp r.op fun o => { o.finish 0 0 0 with bytes := data.length }
    let s := (b.entries.filter (·.2.1)).foldl (fun s e => if (s.seq e.1).state = 8 then s.freeSeq e.1 else s) s
    if s.laurel.step.running then s else s.wantBoundary
  | _, _ => s

def execBatchDeliver (p : PartId) (s : State) : Host.Outcome State Fault Refusal := s.inner (if s.isReady then s.deliverBatch p.val else s)

/-! ## SCALE_FOLD (05 R168) -/

/-- A fold reaches its slot: one that is not declared, or lost in this interval, discards it. -/
def Slot.fold (x : Slot) (v : Nat) : Slot := if x.declared && !x.lost then { x with folded := true, stepMax := max x.stepMax v } else x

def State.scaleFold (s : State) : State :=
  match s.folds with
  | [] => s
  | f :: r => ({ s with folds := r }).modLaurel fun l => { l with slots := SMap.mod {} l.slots f.1 fun x => x.fold f.2 }

def execScaleFold (s : State) : Host.Outcome State Fault Refusal := s.inner (if s.isReady then s.scaleFold else s)

/-! ## PRIVET_FAULT_NOTICE (08 R251, 11 R385) -/

/-- A notice of a unit reaches Laurel: FORMAT_REFUSED is the fault of a sequence, or of a packed row's; POISONED has
no effect of its own; the others abort the step. -/
def State.unitNotice (s : State) : State :=
  match s.unitNotices with
  | [] => s
  | n :: r =>
    let s := { s with unitNotices := r }
    let st := s.laurel.step
    if !st.running || !s.stepParts.contains n.2.2.2 then s
    else if n.2.1 = 2 then
      let tag := n.2.2.1 % 4096
      if n.2.2.1.testBit 12 then (st.entries.filter (·.row == tag)).foldl (fun s e => s.faultSeq e.seq 1) s
      else s.faultSeq tag 1
    else if n.2.1 = 4 then s
    else s.stepAbort 2

def execPrivetFaultNotice (s : State) : Host.Outcome State Fault Refusal := s.inner (if s.isReady then s.unitNotice else s)

/-! ## STEP_KERNEL_LAUNCH, DRAIN_OVERDUE (04 R139, R144; 11 R375) -/

/-- May kernel `k` of the step program be launched: its ORDERED bit, and the run-list writes of the layers it reads? -/
def State.kernelMay (s : State) (k : List Byte) : Bool :=
  let rl := fieldAt k 4 4
  (!(fieldAt k 1 1).testBit 1 || !(s.launches.any fun l => l.by_ == .laurel)) &&
  (rl == 0xFFFFFFFF || !(s.laurel.step.tails.any fun t => decide (t.layer ≤ rl)))

/-- The next kernel of the step is launched; after the last one Laurel closes the step, and a drain begins. -/
def State.launchNext (s : State) (d : Decl) : State :=
  match d.kernels[s.laurel.step.launched]? with
  | none => s
  | some k =>
    if !s.kernelMay k then s
    else
      let s := s.launch .laurel none (fieldAt k 8 8) (fieldAt k 0x10 8) (fieldAt k 0x18 4) ((List.range 8).map fun h => fieldAt k (0x20 + 2 * h) 2)
      let s := s.modLaurel fun l => { l with step := { l.step with launched := l.step.launched + 1 } }
      if s.laurel.step.launched = d.kernels.length then
        { s with drain := { s.drain with active := true, since := if s.drain.active then s.drain.since else s.laurelTs } }
      else s

def State.stepLaunch (s : State) : State :=
  match s.laurel.decl with
  | some d => if s.isReady && s.laurel.step.running && !s.laurel.step.aborting && !s.drain.reached then s.launchNext d else s
  | none => s

def execStepKernelLaunch (s : State) : Host.Outcome State Fault Refusal := s.inner s.stepLaunch

/-- A drain that has lasted longer than OD 0x6040.02 is reported once. -/
def State.drainLate (s : State) : State :=
  let d := s.drain
  if s.isReady && d.active && !d.overdue && !d.reached && decide (1000 * s.odv 0x6040 2 ≤ s.laurelTs - d.since) then
    ({ s with drain := { d with overdue := true } }).post { code := 0x32, source := 0x89, args := [(s.laurelTs - d.since) / 1000] }
  else s

def execDrainOverdue (s : State) : Host.Outcome State Fault Refusal := s.inner s.drainLate

/-! ## WEIGHT_PAGE_RESTORE (11 R387) -/

/-- The board-tier page that holds a copy of a weight page. -/
def Decl.spareOf (d : Decl) (k page : Nat) : Option Nat := (d.spares.find? fun x => weightAt x.1 == (k, page)).map (·.2)

/-- Does Laurel restore a weight page itself? -/
def State.autoRepair (s : State) (k page : Nat) : Option Nat :=
  if s.policy 9 = 1 then s.laurel.decl.bind fun d => d.spareOf k page else none

/-- A repaired weight page is restored from its spare and returned to service; the replay follows. -/
def State.restoreWeight (s : State) : State :=
  match s.laurel.waitPage with
  | none => s
  | some (k, page) =>
    match s.autoRepair k page with
    | none => s
    | some spare =>
      if !s.isReady || s.laurel.serving != 1 || (s.tier k).page page != 2 then s
      else
        let set (s : State) (v : Nat) : State := let t := s.tier k; s.setTier k { t with pages := SMap.set 0 t.pages page v }
        let s := (set s 3).copyPage (pageAddr 8 spare) (pageAddr k page)
        (set s 0).modLaurel fun l => { l with waitPage := none, replayDue := true, wantBoundary := true }

def execWeightPageRestore (s : State) : Host.Outcome State Fault Refusal := s.inner s.restoreWeight

end Sys2Proof.Machine
end

