-- ==== Sys2Proof/Machine/Boundary.lean ====
section
/-!
DEFINITION. The step boundary (04 R139 to R144, 02 R67): when step-quiet is raised, and the work that Laurel, the scale table, the repairs, the region
commands, images and the march do there before the boundary is released (05 R169, R173; 07 R219, R233; 10 R334, R348; 11 R371 to R388; 15 R481, R485).
-/

namespace Sys2Proof.Machine

/-! ## Step-quiet (02 R67) -/

/-- Has the step, if one runs, been launched to its end or been aborted? -/
def State.stepDone (s : State) : Bool :=
  let st := s.laurel.step
  !st.running || st.aborting || (match s.laurel.decl with | some d => decide (d.kernels.length ≤ st.launched) | none => true)

/-- May step-quiet be raised now, for a drain or for a boundary of Laurel's own (11 R364)? -/
def State.mayQuiet (s : State) : Bool :=
  s.isReady && !s.drain.quiet && (s.drain.active || s.laurel.wantBoundary || s.laurel.step.aborting) && (s.stepDone || s.drain.reached) && s.allEmpty

/-! ## Outputs of the closing step (11 R378, R379) -/

/-- Number of drafts that the model chose. -/
def accepted : List Nat → List Nat → Nat
  | d :: ds, o :: os => if d = o then accepted ds os + 1 else 0
  | _, _ => 0

/-- The reason with which a token ends its sequence, 0 for none; the lowest code. -/
def Seq.endsWith (x : Seq) (d : Decl) (tok generated len : Nat) : Nat :=
  if (tok = x.stop && x.stop != 0xFFFFFFFF) || (tok = d.eos && d.eos != 0xFFFFFFFF) then 1
  else if x.maxNew ≤ generated then 2
  else if 64 * d.maxBlocks ≤ len then 3
  else 0

/-- The tokens delivered, up to and including one that ends the sequence, and its reason; `len` is the length committed with the first. -/
def Seq.deliver (x : Seq) (d : Decl) (generated len : Nat) : List Nat → List Nat × Nat
  | [] => ([], 0)
  | t :: ts =>
    let r := x.endsWith d t (generated + 1) len
    if r != 0 then ([t], r)
    else
      let y := x.deliver d (generated + 1) (len + 1) ts
      (t :: y.1, y.2)

/-- Tokens an entry's outputs choose, with drafts evaluated and accepted, and the length that they commit. -/
def Entry.chosen (e : Entry) (out : List Nat) : List Nat × Nat × Nat × Nat :=
  if e.prefill then (if e.sample then [out.getD 0 0] else [], 0, 0, e.pos + e.ntok)
  else
    let drafts := (e.inputs.drop 1).take (e.ntok - 1)
    let a := accepted drafts out
    (drafts.take a ++ [out.getD a 0], drafts.length, a, e.pos + a + 1)

/-- The output tokens of an entry. -/
def State.outToks (s : State) (i : Nat) : List Nat :=
  let g := SMap.get ⟨zeros 64, false⟩ s.laurel.step.outs i
  (List.range 8).map fun j => fieldAt g.bytes (4 * j) 4

/-- A sequence takes the outputs of its entry: LEN, NEXT_TOKEN, GENERATED, SPEC_EPOCH; the tokens to deliver and the reason of its end. -/
def Seq.commit (x : Seq) (d : Decl) (e : Entry) (out : List Nat) (ts : Nat) : Seq × Nat :=
  let c := e.chosen out
  let r := x.deliver d x.generated (c.2.2.2 + 1 - c.1.length) c.1
  let n := r.1.length
  let miss := x.lc && x.measured && decide (1000 * x.goal < ts - x.lastDelivery) && n != 0
  let note := (if e.spec then 16 else 0) + (if x.generated = 0 && n != 0 then 32 else 0) + (if miss then 64 else 0)
  let y := { x with len := c.2.2.2, specEpoch := (x.specEpoch + 1) % 65536, note := x.note ||| note }
  if n = 0 then (y, r.2)
  else
    ({ y with
       next := c.1.getLastD 0, generated := x.generated + n, toks := x.toks ++ r.1, out := r.1, noted := true
       lastDelivery := ts, measured := true }, r.2)

/-! ## Ends, cancellations, pauses at the boundary (11 R364, R379 to R381, R385, R388) -/

/-- A cancellation that takes effect is acknowledged and counted. -/
def State.ackCancel (s : State) (q : Nat) : State := if (s.seq q).cancel then ((s.modSeq q fun x => { x with cancel := false }).noteSeq q 2).laurelCount 6 1 else s

/-- A paused sequence is READY again; a spill that the mover has not taken yet is not begun. -/
def State.resumed (s : State) (q : Nat) : State :=
  let s := s.modLaurel fun l => { l with moves := l.moves.filter (·.seq != q) }
  ((s.modSeq q fun x => { x with measured := false }).goState q 2).noteSeq q 8

/-- Pause and resume, where the host or the projection has asked for them. -/
def State.pauseResume (s : State) (q : Nat) : State :=
  let x := s.seq q
  if x.held && (x.state == 2 || x.state == 3) then ((s.modSeq q fun x => { x with row := none, pausedAt := s.laurelTs }).goState q 4).noteSeq q 4
  else if !x.held && !x.autoPaused && x.state == 4 then s.resumed q
  else if !x.held && !x.autoPaused && x.state == 6 then
    (match s.laurel.decl with
     | none => s
     | some d =>
       let r := s.refsOf d q x.blocks
       let left := (r.1.filter fun h => r.2.refOk h.2.2 && (r.2.ext h.2.2.idx).state == 3).map fun h => (h.1, h.2.1)
       let s := r.2.modLaurel fun l => { l with moves := l.moves ++ [{ seq := q, restore := true, left := left }] }
       ((s.modSeq q fun x => { x with measured := false }).goState q 7).noteSeq q 8)
  else s

/-- The outputs of entry `i` of the closing step reach its sequence. -/
def State.commitEntry (s : State) (d : Decl) (q : Nat) (i : Nat) (e : Entry) : State × Nat :=
  let c := e.chosen (s.outToks i)
  let r := (s.seq q).commit d e (s.outToks i) s.laurelTs
  let miss := r.1.note.testBit 6 && !(s.seq q).note.testBit 6
  let s := ((s.setSeq q r.1).laurelCount 0x0B c.2.1).laurelCount 0x0C c.2.2.1
  (s.laurelCount 0x0D (b2n miss), r.2)

/-- One sequence at the boundary. -/
def State.seqBoundary (s : State) (closing aborted : Bool) (q : Nat) : State :=
  let x := s.seq q
  if x.removed || x.state = 0 || x.state = 8 || s.midMove q then s
  else if x.fault != 0 then (s.ackCancel q).endSeq q 5 x.fault
  else if aborted then (if x.cancel then (s.ackCancel q).endSeq q 4 0 else s.pauseResume q)
  else
    let mine := if closing then (s.laurel.step.entries.zipIdx.find? fun e => e.1.seq == q && x.state == 3) else none
    let r := (match s.laurel.decl, mine with
      | some d, some e => s.commitEntry d q e.2 e.1
      | _, _ => (s, 0))
    let s := r.1
    if x.cancel then (s.ackCancel q).endSeq q (if r.2 = 0 then 4 else r.2) 0
    else if r.2 != 0 then s.endSeq q r.2 0
    else s.pauseResume q

/-- Poisoned output grains of the closing step are sequence faults (11 R385). -/
def State.poisonOuts (s : State) : State :=
  s.laurel.step.entries.zipIdx.foldl (fun s e =>
    if (SMap.get ⟨zeros 64, false⟩ s.laurel.step.outs e.2).poison && (s.seq e.1.seq).state == 3 then s.faultSeq e.1.seq 2 else s) s

/-- Is an extent lost, or its page out of service? -/
def State.extLost (s : State) (i : Nat) : Bool :=
  let x := s.ext i
  x.state == 4 || (s.tier x.tier).page x.page != 0

/-- Sequences that hold a lost extent, or a handle that may not be used, fault (11 R367, R385). -/
def State.extFaults (s : State) (d : Decl) (q : Nat) : State :=
  let x := s.seq q
  if x.state = 0 || x.state = 8 then s
  else
    let r := s.refsOf d q x.blocks
    let s := r.2
    if r.1.any fun h => s.refOk h.2.2 && s.extLost h.2.2.idx then s.faultSeq q 3
    else if x.state = 3 && r.1.any fun h => !s.refOk h.2.2 then s.faultSeq q 4
    else s

/-- Nodes that hold a lost extent are removed, with the nodes below them no longer reachable; walks that had matched one start again (11 R383, R385). -/
def State.dropLost (s : State) (d : Decl) : State :=
  let bad := s.laurel.nodes.filter fun n =>
    let b := (s.nodeGet d n 0x18 2).1
    (s.nodeRefs d n b).1.any fun h => s.refOk h.2 && s.extLost h.2.idx
  let s := bad.foldl (fun s n => s.dropNode d n) s
  (s.laurel.walks.filter fun w => w.parent != noNode && !s.laurel.nodes.contains w.parent).foldl (fun s w =>
    let s := s.releaseSeq w.seq
    let s := s.modSeq w.seq fun x => { x with shared := 0, len := 0 }
    s.modLaurel fun l => { l with walks := l.walks ++ [⟨w.seq, 0, noNode⟩] }) s

/-! ## Index and generations (11 R367, R384) -/

/-- Nodes built become findable; without a place among their 16 buckets they leave. -/
def State.publish (s : State) (d : Decl) : State :=
  s.laurel.building.foldl (fun s b =>
    let f := s.findBucket d b.2 (fun v => v == noNode || v == goneNode) 16 0
    match f.1 with
    | some a => ((f.2.writeDie a (leBytes 4 b.1) false).2).modLaurel fun l => { l with building := l.building.filter (·.1 != b.1) }
    | none => (f.2.dropNode d b.1).laurelCount 0x12 1) s

/-- Where an insertion waits for a node, the least recently used one that may go is evicted. -/
def State.evictForInsert (s : State) (d : Decl) : State :=
  if (s.freeNode d).isNone && s.liveSeqs.any s.insertDue then (s.evictOne d fun _ => true).2 else s

/-- References of the sequences and nodes to an extent are rewritten with a new generation. -/
def State.regen (s : State) (d : Decl) (i old new : Nat) : State :=
  let s := s.liveSeqs.foldl (fun s q => s.onBehalf (some (s.seq q).part) fun s =>
    let r := s.refsOf d q (s.seq q).blocks
    (r.1.filter fun h => !h.2.2.poison && h.2.2.idx == i && h.2.2.gen == old).foldl (fun s h => s.writeRef (d.tabAt q h.1 h.2.1) i new) r.2) s
  s.laurel.nodes.foldl (fun s n =>
    let b := s.nodeGet d n 0x18 2
    let r := b.2.2.nodeRefs d n b.1
    (r.1.filter fun h => !h.2.poison && h.2.idx == i && h.2.gen == old).foldl (fun s h => s.writeRef (d.nodeAt n + 0x140 + 8 * h.1) i new) r.2) s

/-- Live entries of age 2^30 or more take the counter's value. -/
def State.renew (s : State) (d : Decl) : State :=
  (s.laurel.kvdir.filter fun e => e.2.state != 0 && decide (2 ^ 30 ≤ s.genAge e.2.gen)).foldl (fun s e =>
    let g := s.laurel.genCtr
    (s.setExt e.1 { s.ext e.1 with gen := g }).regen d e.1 e.2.gen g) s

/-! ## Drift and the scale slots (05 R169, R173; 08 R271; 15 R481) -/

/-- Lowest slot of a class that was folded in the interval; classes 6 and 7 are OUT (05 R171, R173). -/
def Laurel.foldedOf (l : Laurel) (cls : Nat) : Nat :=
  ((l.slots.find? fun x => satClass x.2.cls == cls && x.2.folded && !x.2.lost).map (·.1)).getD 0xFFFFFFFF

/-- The count of a class meets its threshold: one event until an interval is below it. -/
def State.drift (s : State) (c : Nat) : State :=
  let n := SMap.get 0 s.laurel.sat c
  if n < s.odNow 0x6051 (c + 1) then s.modLaurel fun l => { l with disarmed := l.disarmed.filter (· != c) }
  else if s.laurel.disarmed.contains c then s
  else
    let s := s.post { code := 0x44, source := 0x89, args := [c, s.laurel.step.num % 2 ^ 32, n, s.laurel.foldedOf c] }
    s.modLaurel fun l => { l with disarmed := l.disarmed ++ [c], drifts := inc32 l.drifts }

/-- The smallest exponent with a ≤ F × 2^e, clamped: of a positive FP32 magnitude. -/
def slotExp (fmt a : Nat) : Int :=
  match ofF32 a with
  | .fin m e =>
    let f := scaleF fmt
    let x := floorLog2Rat m.natAbs f
    let up := (if x < 0 then decide ((f : Int) < m * 2 ^ x.natAbs) else decide ((f : Int) * 2 ^ x.natAbs < m))
    max (-127) (min 127 ((if up then x + 1 else x) + e))
  | _ => 0

/-- The update of a declared slot at the end of an interval. -/
def Slot.update (x : Slot) (window : Nat) : Slot :=
  let x := if x.folded then { x with hist := (x.stepMax :: x.hist).take 16, histCount := min (x.histCount + 1) 16 } else x
  let k := min (if x.kOverride then x.kSlot else window) x.histCount
  let a := (x.hist.take k).foldl max 0
  let x := { x with stepMax := 0, folded := false }
  if a = 0 then x
  else
    let e : BitVec 8 := BitVec.ofInt 8 (slotExp x.fmt a)
    if e = x.exp then x else { x with exp := e, updates := inc32 x.updates }

/-- A slot found uncorrectable is rewritten clean, its declaration from Laurel's second copy. -/
def Slot.clean (x : Slot) : Slot :=
  { declared := x.declared, fmt := x.copy.getD 0 0, cls := x.copy.getD 1 0, kOverride := x.copy.getD 2 0 == 1, kSlot := x.copy.getD 3 0, copy := x.copy }

/-- The end of an interval: drift, slots (a lost one is rewritten clean, declared or not), counts, the narrow-key event. -/
def State.endInterval (s : State) : State :=
  let s := (List.range 6).foldl State.drift s
  let w := s.odNow 0x6050 1
  let s := if s.laurel.narrow = 0 then s else s.post { code := 0x45, source := 0x89, args := [s.laurel.narrow] }
  s.modLaurel fun l =>
    { l with
      slots := (l.slots.map fun x => (x.1, if x.2.lost then x.2.clean else if x.2.declared then x.2.update w else x.2)).filter fun x => x.2 != {}
      satLast := l.sat, sat := [], narrow := 0 }

/-! ## Repairs (07 R233, R234) -/

/-- A row as R234 lays it out. -/
def rowWord (k page pch bank : Nat) : Nat := k + 8 * pch + 512 * (page % 4) + 2048 * bank + 32768 * (page / 4) + 2 ^ 31

/-- Enter a row in the pending hard-repair list, a place of the parameter memory. -/
def State.listRow (s : State) (w : Nat) : State :=
  match (List.range 16).find? fun i => !(s.odNow 0x9201 (i + 1)).testBit 31 with
  | some i => ({ s with od := odStore s.od 0x9201 (i + 1) w }).wroteParam
  | none => s.post { code := 0x23, source := 0x80 + bits w 0 3, args := [w % 2 ^ 28] }

/-- Bank of a row's soft repair. -/
def softKey (page pch bank : Nat) : Nat := 64 * (16 * (page % 4) + bank) + pch

/-- A row of a page gets the bank's soft-repair row. -/
def State.repairRow (s : State) (k page : Nat) (r : Nat × Nat) : State :=
  let t := s.tier k
  let t := { t with softUsed := SMap.set 0 t.softUsed (softKey page r.1 r.2) 1 }
  (s.setTier k (t.replaceRow page r.1 r.2)).listRow (rowWord k page r.1 r.2)

/-- A Blighted page of a stack: each recorded row is replaced; without a spare row the page stays Blighted. -/
def State.repairPage (s : State) (k page : Nat) : State :=
  let t := s.tier k
  let rows := (t.badRows.filter (·.1 == page)).map (·.2)
  let r := rows.foldl (fun (acc : Option (Nat × Nat) × State) r =>
    match acc.1 with
    | some _ => acc
    | none => if SMap.get 0 (acc.2.tier k).softUsed (softKey page r.1 r.2) = 1 then (some r, acc.2) else (none, acc.2.repairRow k page r)) (none, s)
  let t := r.2.tier k
  match r.1 with
  | some x =>
    (r.2.setTier k { t with noRepair := t.noRepair ++ [page] }).post
      { code := 0x22, source := 0x80 + k, args := [k, page, rowWord k page x.1 x.2 % 2 ^ 28] }
  | none =>
    (r.2.setTier k { t with pages := SMap.set 0 t.pages page 2, badRows := t.badRows.filter (·.1 != page) }).post
      { code := 0x21, source := 0x80 + k, args := [k, page, rows.length] }

/-- The repairs of a boundary. -/
def State.repairs (s : State) : State :=
  (List.range 8).foldl (fun s k =>
    let t := s.tier k
    (t.pages.keys.filter fun p => t.page p == 1 && !t.noRepair.contains p).foldl (fun s p => s.repairPage k p) s) s

/-! ## Weight pages and halting (11 R387) -/

def State.halt (s : State) (cause : Nat) : State :=
  (s.modLaurel fun l => { l with serving := 3 }).post { code := 0x42, source := 0x89, args := [cause] }

/-- The first page of the weight list that is out of service. -/
def State.weightOut (s : State) : Option (Nat × Nat) :=
  s.laurel.decl.bind fun d => (d.weights.map weightAt).find? fun w => (s.tier w.1).page w.2 != 0

/-- After the repairs: a weight page that is out of service is restored by Laurel or awaited, or serving halts. -/
def State.weights (s : State) : State :=
  if s.laurel.serving != 1 then s
  else
    match s.weightOut with
    | none => s.modLaurel fun l => { l with waitPage := none, replayDue := l.replayDue || l.waitPage.isSome }
    | some (k, page) =>
      let s := s.modLaurel fun l => { l with waitPage := some (k, page) }
      if k = 8 then s.halt 2
      else if (s.tier k).page page = 1 then s.halt 1
      else if (s.autoRepair k page).isSome then s
      else (s.modLaurel fun l => { l with serving := 2 }).post { code := 0x41, source := 0x89, args := [k, page] }

/-- Aborts in succession: more than OD 0x6000.08 halt serving; otherwise the replay is due. -/
def State.abortsInRow (s : State) (closing aborted : Bool) : State :=
  if !closing then s
  else if !aborted then s.modLaurel fun l => { l with aborts := 0 }
  else
    let s := (s.modLaurel fun l => { l with aborts := l.aborts + 1, replayDue := true }).laurelCount 2 1
    if s.policy 8 < s.laurel.aborts && s.laurel.serving != 3 then s.halt 3 else s

/-- The duration of the closing step, its load and the rate of R374. -/
def Decl.load (d : Decl) (es : List Entry) : Nat :=
  (es.map fun e => d.cRow + d.cKv * (e.pos + e.ntok) + (if e.prefill then d.cPre * e.ntok else 0)).foldl (· + ·) 0

def State.rate (s : State) (closing aborted : Bool) : State :=
  match s.laurel.decl with
  | none => s
  | some d =>
    let st := s.laurel.step
    let w := d.load st.entries
    let dur := s.laurelTs - st.release
    if !closing || aborted then s
    else
      let s := s.modLaurel fun l => { l with lastStepNs := min dur (2 ^ 32 - 1) }
      if w = 0 then s else s.modLaurel fun l => { l with rateNum := 3 * l.rateNum * w + dur * l.rateDen, rateDen := 4 * l.rateDen * w }

/-! ## Building a step (11 R373, R374, R378, R381) -/

/-- Latency-critical first, then the earliest admitted. -/
def State.before (s : State) (p q : Nat) : Bool :=
  let x := s.seq p
  let y := s.seq q
  if x.lc != y.lc then x.lc else if x.admitStep != y.admitStep then decide (x.admitStep < y.admitStep) else decide (p < q)

/-- A partition has a batch that is not delivered: its sequences are not placed (R373 step 5). -/
def State.withheld (s : State) (q : Nat) : Bool := !(SMap.get [] s.laurel.batches (s.seq q).part).isEmpty

/-- Drafts that a decode entry takes: `none` where it is no speculative entry. -/
def State.draftsOf (s : State) (d : Decl) (x : Seq) : Option (List Nat) :=
  if x.draftCount = 0 || x.draftEpoch != x.specEpoch then none
  else some (x.drafts.take (min (min x.draftCount (s.policy 3)) (min (x.maxNew - x.generated - 1) (64 * d.maxBlocks - x.len - 1))))

/-- The entry of a sequence with at most `budget` prefill tokens; its row is filled in later. -/
def State.entryOf (s : State) (d : Decl) (q budget : Nat) : Option Entry :=
  let x := s.seq q
  let e : Entry :=
    { seq := q, handle := x.handle q, prefill := false, sample := true, spec := false, kvFmt := x.kvFmt, row := x.row.getD 0xFFFF, pos := x.len, ntok := 1
      inputs := [x.next], seed := x.seed, temp := x.temp, topK := x.topK }
  if x.len < x.promptLen then
    let n := min (min (x.promptLen - x.len) d.chunk) budget
    if n = 0 then none
    else some { e with prefill := true, sample := x.len + n == x.promptLen, ntok := n, inputs := [], promptAt := x.promptAddr + 4 * x.len }
  else
    match s.draftsOf d x with
    | some ds => some { e with spec := true, ntok := 1 + ds.length, inputs := x.next :: ds }
    | none => some e

/-- The entries of sequences `qs`: prefill tokens go to the latency-critical first. -/
def State.entriesOf (s : State) (d : Decl) (qs : List Nat) : List Entry :=
  ((sortBy s.before qs).foldl (fun (acc : List Entry × Nat) q =>
    match s.entryOf d q acc.2 with
    | some e => (acc.1 ++ [e], if e.prefill then acc.2 - e.ntok else acc.2)
    | none => acc) ([], s.policy 2)).1

/-- May a prefill entry share a row? -/
def Entry.packs (e : Entry) (d : Decl) : Bool := e.prefill && d.pack != 0 && decide (e.ntok ≤ d.pack)

/-- A row that a packable entry may join: all that hold it are packable entries placed, with room for it. -/
def State.packRow (s : State) (d : Decl) (placed : List Entry) (n : Nat) : Option Nat :=
  ((placed.filter (·.packs d)).map (·.row)).find? fun r =>
    let here := placed.filter (·.row == r)
    here.all (·.packs d) && decide ((here.map (·.ntok)).foldl (· + ·) 0 + n ≤ d.pack) &&
      (s.liveSeqs.all fun q => (s.seq q).row != some r || here.any (·.seq == q))

/-- Rows for the entries, in the order of `qs`: those running keep theirs, the others share one or take the lowest free; 256 entries in all. -/
def State.placeRows (s : State) (d : Decl) (qs : List Nat) (es : List Entry) : List Entry :=
  let held := s.liveSeqs.filterMap fun q => (s.seq q).row
  let limit := s.policy 1
  let running := (es.filter fun e => (s.seq e.seq).row.isSome).take 256
  qs.foldl (fun placed q =>
    match es.find? fun e => e.seq == q && (s.seq q).row.isNone with
    | none => placed
    | some e =>
      let rows := (held ++ placed.map (·.row)).eraseDups
      let r := (match (if e.packs d then s.packRow d placed e.ntok else none) with
        | some r => some r
        | none => if rows.length < limit then (List.range limit).find? fun r => !rows.contains r else none)
      match r with
      | some r => if placed.length < 256 then placed ++ [{ e with row := r }] else placed
      | none => placed) running

/-- The candidate of sequences `qs`, in their order of placement. -/
def State.plan (s : State) (d : Decl) (qs : List Nat) : List Entry := s.placeRows d qs (s.entriesOf d qs)

/-- The smallest goal among the latency-critical entries. -/
def State.goalOf (s : State) (es : List Entry) : Option Nat :=
  (es.filterMap fun e => if (s.seq e.seq).lc then some (s.seq e.seq).goal else none).min?

/-- Does the projected duration meet the goal less its margin? -/
def State.fits (s : State) (d : Decl) (es : List Entry) : Bool :=
  match s.goalOf es with
  | none => true
  | some g => decide (s.laurel.rateNum * d.load es ≤ g * (1000 - s.policy 4) * s.laurel.rateDen)

/-- A best-effort sequence is auto-paused. -/
def State.autoPause (s : State) (q : Nat) : State :=
  (((s.modSeq q fun x => { x with autoPaused := true, row := none, pausedAt := s.laurelTs }).goState q 4).noteSeq q 4).laurelCount 7 1

/-- The best-effort entry that goes first: prefill before decode, then the most recently admitted. -/
def State.firstOut (s : State) (es : List Entry) : Option Nat :=
  let worse (x y : Entry) : Bool :=
    if x.prefill != y.prefill then x.prefill
    else
      let a := (s.seq x.seq).admitStep
      let b := (s.seq y.seq).admitStep
      if a != b then decide (b < a) else decide (y.seq < x.seq)
  ((sortBy worse (es.filter fun e => !(s.seq e.seq).lc)).head?).map (·.seq)

/-- Best-effort entries are removed while the projection is too long: what is left, and the state with those removed paused. -/
def State.shed (s : State) (d : Decl) : Nat → List Nat → List Nat × State
  | 0, qs => (qs, s)
  | fuel + 1, qs =>
    let es := s.plan d qs
    if s.fits d es then (qs, s)
    else
      match s.firstOut es with
      | none => (qs, s)
      | some q => (s.autoPause q).shed d fuel (qs.filter (· != q))

/-- A spilled or paused sequence is resumed for a step: it joins the candidate, or its restore begins. -/
def State.unpause (s : State) (q : Nat) : State :=
  let s := s.modSeq q fun x => { x with autoPaused := false }
  if (s.seq q).state = 6 then s.onBehalf (some (s.seq q).part) fun s => s.pauseResume q else s.resumed q

/-- Auto-paused sequences return, oldest first, while the projection with them meets the test; one that has starved is placed regardless. -/
def State.comeBack (s : State) (d : Decl) (back : List Nat) (qs : List Nat) : List Nat × State :=
  let limit := s.policy 5
  let r := back.foldl (fun (acc : List Nat × Bool × Bool × State) q =>
    let s := acc.2.2.2
    let x := s.seq q
    let es := s.plan d (acc.1 ++ [q])
    let has := es.any (·.seq == q)
    let starved := limit != 0 && !acc.2.1 && decide (1000000 * limit < s.laurelTs - x.pausedAt)
    let free := !acc.2.2.1 && s.fits d es
    if !has then acc
    else if free then (acc.1 ++ (if x.state = 4 then [q] else []), acc.2.1, acc.2.2.1, s.unpause q)
    else if starved then (acc.1 ++ (if x.state = 4 then [q] else []), true, true, s.unpause q)
    else (acc.1, acc.2.1, true, s)) (qs, false, false, s)
  (r.1, r.2.2.2)

/-- The spill of the sequence paused longest among those with extents in a stack is asked for (11 R381); it begins when the mover takes the sequence (R362). -/
def State.startSpill (s : State) (d : Decl) (k : Nat) : State :=
  let c := (s.liveSeqs.filter fun q => (s.seq q).state == 4 && !s.laurel.moves.any (·.seq == q)).foldl (fun (acc : List Nat × State) q =>
    let r := acc.2.forPart (some (acc.2.seq q).part) fun s => s.refsOf d q (s.seq q).blocks
    (if r.1.any fun h => r.2.refOk h.2.2 && (r.2.ext h.2.2.idx).tier == k then acc.1 ++ [q] else acc.1, r.2)) ([], s)
  match sortBy (fun p q => decide ((s.seq p).pausedAt < (s.seq q).pausedAt)) c.1 with
  | [] => c.2
  | q :: _ => c.2.modLaurel fun l => { l with moves := l.moves ++ [{ seq := q, restore := false, left := [] }] }

/-- A stack short of extents: nodes that hold some of it are evicted, then a spill begins. -/
def State.makeRoom (s : State) (d : Decl) (k : Nat) : State :=
  let low (s : State) : Bool := decide (s.freeCount d k < max 1 (s.policy 6))
  let s := (List.range s.laurel.nodes.length).foldl (fun s _ => if low s then (s.evictOne d (s.nodeIn d k)).2 else s) s
  if low s then s.startSpill d k else s

/-- A block's extents are allocated, all or none. -/
def State.allocBlock (s : State) (d : Decl) (q b : Nat) : Option State :=
  (d.needs b).foldl (fun (acc : Option State) e =>
    match acc with
    | none => none
    | some s => (s.allocExt d (s.seq q).kvFmt e).map fun r => (r.2.writeRef (d.tabAt q b e) r.1 (r.2.ext r.1).gen)) (some s)

/-- The blocks that an entry needs: whether all could be had. -/
def State.allocFor (s : State) (d : Decl) (e : Entry) : Bool × State :=
  let x := s.seq e.seq
  let need := (List.range (cdiv (e.pos + e.ntok) 64)).filter fun b => decide (x.blocks ≤ b)
  let ks := ((need.flatMap d.needs).map d.stackOf).eraseDups
  let s := ks.foldl (fun s k => s.makeRoom d k) s
  need.foldl (fun (acc : Bool × State) b =>
    if !acc.1 then acc
    else
      match acc.2.allocBlock d e.seq b with
      | some s => (true, s.modSeq e.seq fun x => { x with blocks := b + 1 })
      | none => (false, acc.2)) (true, s)

/-- Whole run-list entries for the blocks whose first token an entry writes (R369). -/
def State.beginRuns (s : State) (d : Decl) (e : Entry) : State :=
  let top := e.pos + e.ntok
  ((List.range (cdiv top 64)).filter fun b => decide (e.pos ≤ 64 * b)).foldl (fun s b =>
    (d.slicesAt b).foldl (fun s x =>
      let r := s.readRef (d.tabAt e.seq b x.extent)
      r.2.beginRun d e.seq b (min 64 (top - 64 * b)) (r.2.ext r.1.idx).page (r.2.ext r.1.idx).fmt x) s) s

/-- An entry is set up: its blocks, its sequence RUNNING in its row, its drafts consumed. -/
def State.setUp (s : State) (d : Decl) (e : Entry) : Bool × State :=
  let a := s.allocFor d e
  if !a.1 then (false, a.2.laurelCount 0x0E 1)
  else
    let s := a.2.beginRuns d e
    let s := if (s.seq e.seq).state = 3 then s else (s.goState e.seq 3).noteSeq e.seq 0
    (true, s.modSeq e.seq fun x =>
      { x with row := some e.row, draftCount := if e.spec then 0 else x.draftCount, drafts := if e.spec then [] else x.drafts })

/-- The sequences that may be placed, in order: those running, then those READY. -/
def State.placeable (s : State) : List Nat :=
  (s.liveSeqs.filter fun q => (s.seq q).state == 3) ++ sortBy s.before (s.liveSeqs.filter fun q => (s.seq q).state == 2 && !(s.seq q).held)

/-- Auto-paused sequences, oldest first. -/
def State.autoPausedSeqs (s : State) : List Nat :=
  sortBy (fun p q => decide ((s.seq p).pausedAt < (s.seq q).pausedAt))
    (s.liveSeqs.filter fun q => let x := s.seq q; x.autoPaused && !x.held && (x.state == 4 || x.state == 6))

/-- A fresh step. -/
def State.freshStep (s : State) (d : Decl) : List Entry × State :=
  let all := s.placeable
  let back := s.autoPausedSeqs.filter fun q => !s.withheld q
  let s := s.laurelCount 0x0F (all.countP s.withheld)
  let qs := all.filter fun q => !s.withheld q
  let a := s.shed d qs.length qs
  let b := a.2.comeBack d back a.1
  (b.2.plan d b.1).foldl (fun (acc : List Entry × State) e =>
    let r := acc.2.forPart (some (acc.2.seq e.seq).part) fun s => s.setUp d e
    (if r.1 then acc.1 ++ [e] else acc.1, r.2)) ([], b.2)

/-- The replay of an aborted step: the same entries less the sequences removed (R386). -/
def State.replayStep (s : State) : List Entry :=
  s.laurel.step.entries.filter fun e => (s.seq e.seq).state == 3 && (s.seq e.seq).handle e.seq == e.handle

/-- The step frame is written, and the step runs; with no entry there is none. -/
def State.openStep (s : State) (es : List Entry) (replay : Bool) : State :=
  if es.isEmpty then s.modLaurel fun l => { l with step := { num := l.step.num } }
  else
    let rows := (es.map (·.row)).eraseDups.length
    let s := s.modLaurel fun l =>
      { l with step := { num := l.step.num + 1, running := true, entries := es, rows := rows, replay := replay, release := s.laurelTs } }
    (s.laurelCount 1 1).laurelCount 3 (b2n replay)

/-- The next step: a replay that is due, else a fresh one; none while serving is halted or a weight page is awaited. -/
def State.build (s : State) : State :=
  match s.laurel.decl with
  | none => s.modLaurel fun l => { l with step := { num := l.step.num } }
  | some d =>
    if s.laurel.serving != 1 || s.laurel.waitPage.isSome then
      -- an aborted step's entries stay for its replay
      s.modLaurel fun l => { l with step := if l.replayDue then { l.step with running := false, aborting := false } else { num := l.step.num } }
    else
      let re := if s.laurel.replayDue then s.replayStep else []
      let s := s.modLaurel fun l => { l with replayDue := false }
      if !re.isEmpty then s.openStep re true
      else
        let r := s.freshStep d
        r.2.openStep r.1 false

/-! ## Batches (11 R376, R377) -/

/-- A sequence's entry in a batch. -/
def Seq.batchEntry (x : Seq) (q : Nat) : List Byte :=
  leBytes 4 (x.handle q) ++ leBytes 2 x.note ++ leBytes 1 x.out.length ++ leBytes 1 (x.endReason + 16 * (if x.state = 8 then x.fault else 0))
    ++ leBytes 2 x.specEpoch ++ zeros 2 ++ leBytes 4 x.len ++ (List.range 8).flatMap fun i => leBytes 4 (x.out.getD i 0)

/-- The batch of a partition, if it has an entry: token entries first among the 340 that fit, all in sequence order. -/
def State.batchFor (s : State) (step : Nat) (aborted : Bool) (p : Nat) : State :=
  let due := s.liveSeqs.filter fun q =>
    let x := s.seq q
    x.part == p && x.noted && (!aborted || x.note.testBit 0)
  let held := SMap.get [] s.laurel.batches p
  let toks := due.filter fun q => !(s.seq q).out.isEmpty
  let rest := (due.filter fun q => (s.seq q).out.isEmpty).take (340 - toks.length)
  let qs := due.filter fun q => toks.contains q || rest.contains q
  if qs.isEmpty || 2 ≤ held.length then s
  else
    let b : Batch :=
      { step := step, flags := b2n aborted, quiet := s.laurelTs
        entries := qs.map fun q => (q, (s.seq q).note.testBit 0, (s.seq q).batchEntry q) }
    let s := s.modLaurel fun l => { l with batches := SMap.set [] l.batches p (held ++ [b]) }
    qs.foldl (fun s q => s.modSeq q fun x => { x with note := 0, noted := false, out := [] }) s

def State.batches (s : State) (step : Nat) (aborted : Bool) : State :=
  (List.range 16).foldl (fun s p => s.batchFor step aborted p) s

/-! ## After the release (11 R375) -/

/-- The run-list tails of an entry whose COUNT changes, of the block that holds its first position and of any begun for positions that were rejected since: layer, address, new bytes, poison, and the partition of the sequence (07 R237). -/
def State.tailsOf (s : State) (d : Decl) (e : Entry) : List (Nat × Nat × List Byte × Bool × Nat) × State :=
  let part := (s.seq e.seq).part
  let places := ((List.range (s.seq e.seq).blocks).filter fun b => decide (e.pos / 64 ≤ b)).flatMap fun b => (d.slicesAt b).map fun x => (b, x)
  s.forPart (some part) fun s => places.foldl (fun (acc : List (Nat × Nat × List Byte × Bool × Nat) × State) p =>
    let a := d.runAt e.seq p.2 p.1
    let r := acc.2.readDie a 16
    let w := fieldAt r.1.bytes 0 8
    let n := min 64 (e.pos + e.ntok - 64 * p.1)
    (if bits w 50 7 = n then acc.1
      else acc.1 ++ [(p.2.layer, a, leBytes 8 (setBits w 50 7 n) ++ (r.1.bytes.drop 8).take 8, r.1.poison, part)], r.2)) ([], s)

/-- The step is released: its tails are sent in layer order, each a 16-byte write. -/
def State.releaseStep (s : State) : State :=
  let s := s.modLaurel fun l => { l with step := { l.step with release := if l.step.running then s.laurelTs else l.step.release } }
  let s := (match s.laurel.decl with
    | some d =>
      if !s.laurel.step.running then s
      else
        let r := s.laurel.step.entries.foldl (fun (acc : List (Nat × Nat × List Byte × Bool × Nat) × State) e =>
          let t := acc.2.tailsOf d e
          (acc.1 ++ t.1, t.2)) ([], s)
        let all := r.1
        let s := r.2
        let ts := sortBy (fun (x y : Nat × Nat × List Byte × Bool × Nat) => decide (x.1 < y.1)) all
        ts.foldl (fun (s : State) (t : Nat × Nat × List Byte × Bool × Nat) =>
          let tail : Tail := ⟨t.1, s.nextId⟩
          let q : Txn :=
            { id := 0, agent := .laurel, kind := .write, dest := ⟨none, t.2.1⟩, len := 16, data := ⟨t.2.2.1, t.2.2.2.1⟩, part := some t.2.2.2.2
              purpose := .posted }
          (s.ask q).modLaurel fun l => { l with step := { l.step with tails := l.step.tails ++ [tail] } }) s
    | none => s)
  s.releaseBoundary

/-! ## STEP_QUIET_RAISE -/

/-- The sequences that have ended release what they hold; those that a partition reset removes return to FREE (11 R368, R388). -/
def State.releaseEnded (s : State) : State :=
  s.liveSeqs.foldl (fun s q =>
    let x := s.seq q
    if x.removed then (if s.midMove q then s else (s.releaseSeq q).freeSeq q) else if x.state = 8 then s.releaseSeq q else s) s

/-- Laurel's work on the closing step (11 R371, first part). -/
def State.closeStep (s : State) (closing aborted : Bool) : State :=
  let s := if closing && !aborted then s.poisonOuts else s
  let s := (match s.laurel.decl with
    | some d => s.liveSeqs.foldl (fun (s : State) q => s.onBehalf (some (s.seq q).part) fun s => s.extFaults d q) s
    | none => s)
  let s := s.rate closing aborted
  let s := s.liveSeqs.foldl (fun (s : State) q => s.onBehalf (some (s.seq q).part) fun s => s.seqBoundary closing aborted q) s
  match s.laurel.decl with
  | some d => ((((s.dropLost d).publish d).evictForInsert d).releaseEnded).renew d
  | none => s.releaseEnded

/-- Loads and unloads that asked for the drain go on at the boundary, or end (10 R348); a DRAIN completes when it has been released (R334). -/
def State.drainOps (s : State) : State :=
  s.drain.ops.foldl (fun s id =>
    match s.op? id with
    | none => s
    | some o =>
      match o.opcode with
      | 5 => s
      | 7 => s.unload id
      | _ => if s.model.isSome then s.modOp id fun o => o.finish 10 1 0 else s.haltCores) s

/-- Does an image load hold the boundary? -/
def State.imageHolds (s : State) : Bool :=
  s.drain.ops.any fun id => (match s.op? id with | some o => o.opcode == 6 && o.stage == .running | none => false)

/-- Pending region commands are applied. -/
def State.applyRegions (s : State) : State :=
  (List.range 9).foldl (fun s k => if (s.tier k).pending.isSome then s.setTier k ((s.tier k).applyRegion k) else s) s

/-- A requested march begins and holds the boundary (15 R485). -/
def State.beginMarch (s : State) : State :=
  if s.march.requested = 0 then s
  else { s with march := { s.march with running := s.march.requested, began := s.ts, requested := 0, result := 1 } }

/-- The boundary is released, or held. -/
def State.endBoundary (s : State) : State :=
  let s := s.beginMarch
  let image := s.imageHolds
  let march := s.march.running != 0
  if image || march then { s with drain := { s.drain with active := true, quiet := true, reached := true, heldImage := image, heldMarch := march } }
  else s.releaseStep

/-- The work of a boundary. -/
def State.boundary (s : State) (q : QuietIn) : State :=
  let s := s.modLaurel fun l => { l with wantBoundary := false, policy := s.policyNow }
  let s := q.lost.foldl (fun s x => s.laurelLost x.1 x.2.1 x.2.2) (s.sramCorr q.corr)
  let closing := s.laurel.step.running
  let aborted := s.laurel.step.aborting
  let num := s.laurel.step.num
  let s := s.closeStep closing aborted
  let s := (s.endInterval).repairs
  let s := (s.abortsInRow closing aborted).weights
  let s := (s.build).batches num aborted
  ((s.applyRegions).drainOps).endBoundary

/-- STEP_QUIET_RAISE: a boundary whose work is done is reached again, and released where nothing holds it (04 R143). -/
def State.raiseQuiet (s : State) (q : QuietIn) : State :=
  if !s.mayQuiet then s
  else if s.drain.reached then
    let s := { s with drain := { s.drain with quiet := true } }
    if s.drain.heldImage || s.drain.heldMarch then s else s.releaseStep
  else s.boundary q

def execStepQuietRaise (q : QuietIn) (s : State) : Host.Outcome State Fault Refusal := s.inner (s.raiseQuiet q)

end Sys2Proof.Machine
end

