-- ==== Sys2Proof/Machine/HrOps.lean ====
section
/-!
DEFINITION. Hedgerow frames: their bytes, sending, forwarding and acceptance (13 R415 to R424), responses kept for controllers (R428) and
notices (R432). The frame check sequence is IEEE 802.3's CRC-32, sent least significant byte first (PRESUMED, log 28).
-/

namespace Sys2Proof.Machine

/-- Big-endian bytes, as a MAC address and the EtherType are sent. -/
def beBytes (n v : Nat) : List Byte := (leBytes n v).reverse
def beAt (l : List Byte) (o n : Nat) : Nat := leNat ((l.drop o).take n).reverse

/-- The module's unicast MAC address (13 R442). -/
def ownMac : Nat := 0x025942000000 + Config.macLow.toNat
/-- The ring group address (13 R419). -/
def groupMac : Nat := 0x035942480001

/-- A frame on the wire: at least 60 bytes, then its FCS, inverted where `good` is false (R422). -/
def onWire (b : List Byte) (good : Bool) : List Byte :=
  let p := b ++ zeros (60 - b.length)
  let c := crc32 p
  p ++ leBytes 4 (if good then c else 0xFFFFFFFF - c)

/-- The bytes of a frame of this module's own (13 R419). -/
def HFrame.bytes (f : HFrame) (up : Bool) : List Byte :=
  beBytes 6 f.da ++ beBytes 6 f.sa ++ beBytes 2 f.etherType ++ leBytes 1 f.version ++ leBytes 1 f.service
    ++ leBytes 1 (b2n up + 2 * f.try_) ++ leBytes 1 f.hops ++ leBytes 2 f.dst ++ leBytes 2 f.src ++ leBytes 2 f.seq
    ++ leBytes 2 f.payload.length ++ zeros 4 ++ f.payload

/-- The frame that bytes carry. -/
def frameOf (b : List Byte) : HFrame :=
  { da := beAt b 0 6, sa := beAt b 6 6, etherType := beAt b 12 2, version := fieldAt b 14 1 % 16, service := fieldAt b 15 1
    up := (fieldAt b 16 1).testBit 0, try_ := bits (fieldAt b 16 1) 1 2, hops := fieldAt b 17 1, dst := fieldAt b 18 2
    src := fieldAt b 20 2, seq := fieldAt b 22 2, payload := (b.drop 30).take (fieldAt b 24 2) }

/-- A frame that every node discards (13 R420): one shorter than its header too (log 29). -/
def malformed (b : List Byte) : Bool :=
  let f := frameOf b
  decide (b.length < 30) || f.etherType != 0x88B5 || (f.da != groupMac && f.da.testBit 40) || f.version != 1 ||
  decide (b.length < 30 + fieldAt b 24 2)

/-! ## Links -/

/-- Is the link of a pair up (13 R443 OD 0x1100.0A): HR_IN, or HR_OUT? -/
def State.hrLink (s : State) (inPair : Bool) : Bool := s.power.bypassOpen && (if inPair then s.hr.inUp else s.hr.outUp)

/-- Is there a node that can send and take frames: the island is powered, out of reset, and its by-pass open (01 R38)? -/
def State.islandOn (s : State) : Bool := s.power.on && s.power.bypassOpen

/-- OD 0x1100.0A. -/
def State.hrFlags (s : State) : Nat := b2n (s.hrLink true) + 2 * b2n (s.hrLink false) + 4 * b2n s.power.bypassOpen + 8 * b2n s.hr.conflict

/-- Count in OD 0x1130. -/
def State.hrCount (s : State) (sub n : Nat) : State :=
  { s with hr := { s.hr with cnt := SMap.mod 0 s.hr.cnt sub fun c => if sub < 3 then add64 c n else satAdd 32 c n } }

/-! ## Sending (13 R423, R424) -/

def State.hrLine (s : State) (up : Bool) : HrLine := if up then s.hr.lineUp else s.hr.lineDown
def State.setLine (s : State) (up : Bool) (l : HrLine) : State :=
  { s with hr := if up then { s.hr with lineUp := l } else { s.hr with lineDown := l } }

/-- How long a frame takes on the line, in ns: 80 ns for each byte, of its preamble and of the gap after it too (R415). -/
def lineTime (b : List Byte) : Nat := 80 * (b.length + 20)

/-- The frame that begins next, whether it is this module's own, and what waits after it: of both kinds at most one of its own for each in transit (R424). -/
def HrLine.next (l : HrLine) : Option (List Byte × Bool × HrLine) :=
  match l.own, l.transit with
  | b :: r, [] => some (b, true, { l with own := r, lastOwn := true })
  | [], b :: r => some (b, false, { l with transit := r, lastOwn := false })
  | o :: ro, t :: rt => if l.lastOwn then some (t, false, { l with transit := rt, lastOwn := false }) else some (o, true, { l with own := ro, lastOwn := true })
  | [], [] => none

/-- Bytes of transit frames that wait in the buffer. -/
def HrLine.held (l : HrLine) : Nat := (l.transit.map List.length).sum

/-- A direction whose line is idle begins its next frame; what waits for a link that is down does not leave by it. -/
def State.hrStart (s : State) (up : Bool) : State :=
  let l := s.hrLine up
  if !s.hrLink up then s.setLine up { l with transit := [], own := [] }
  else if s.ts < l.free then s
  else
    match l.next with
    | none => s
    | some (b, own, l') =>
      let s := (s.setLine up { l' with free := s.ts + lineTime b }).emit (.hedgerow up b)
      if own then s.hrCount 2 1 else s

/-- One copy of a frame of this module's own: downstream by HR_OUT, upstream by HR_IN; by a link that is down it does not leave. -/
def State.hrCopy (s : State) (b : List Byte) (up : Bool) : State :=
  let l := s.hrLine up
  (s.setLine up { l with own := l.own ++ [b] }).hrStart up

/-- A frame in transit: it joins its direction's buffer of 3,076 bytes, or finds no room there. -/
def State.hrTransit (s : State) (b : List Byte) (up : Bool) : State :=
  let l := s.hrLine up
  if 3076 < l.held + b.length then s.hrCount 6 1 else (s.setLine up { l with transit := l.transit ++ [b] }).hrStart up

/-- Both copies of a frame of this module's own. -/
def State.hrSend (s : State) (f : HFrame) : State :=
  let s := s.hrCopy (onWire (f.bytes false) true) false
  s.hrCopy (onWire (f.bytes true) true) true

/-- Can a frame leave at all? -/
def State.hrCanSend (s : State) : Bool := s.hrLink false || s.hrLink true

/-- A frame of this module's own to node `dst`, in the group address, with 127 hops (13 R422). -/
def State.hrFrame (s : State) (service dst seq try_ : Nat) (payload : List Byte) : HFrame :=
  { da := groupMac, sa := ownMac, service := service, up := false, try_ := try_, hops := 127, dst := dst, src := s.hr.addr
    seq := seq, payload := payload }

/-- A sequence number of this module's own choosing: for sweeps and notices (13 R419; log 9). -/
def State.hrSeq (s : State) : Nat × State :=
  let n := (s.hr.seqOut + 1) % 65536
  (n, { s with hr := { s.hr with seqOut := n } })

/-- A controller's address (13 R417). -/
def isController (a : Nat) : Bool := decide (0x40 ≤ a) && decide (a ≤ 0x4F)

/-- The kept response of a controller for the request with a sequence number: service and payload. -/
def State.hrKept (s : State) (src seq : Nat) : Option (Nat × List Byte) :=
  if isController src then (s.hr.kept.find? fun k => k.1 == src && k.2.1 == seq).map fun k => (k.2.2.1, k.2.2.2) else none

/-- A response leaves, and is kept for a controller where its request has been performed (13 R425, R428). -/
def State.hrRespond (s : State) (src seq service : Nat) (performed : Bool) (payload : List Byte) : State :=
  let s := s.hrSend (s.hrFrame service src seq 0 payload)
  if isController src && performed then
    { s with hr := { s.hr with kept := s.hr.kept.filter (fun k => k.1 != src) ++ [(src, seq, service, payload)] } }
  else s

/-! ## Receiving (13 R418 to R424) -/

/-- A frame is forwarded the way it travels, with one hop fewer; one received damaged with its FCS inverted (R422). A copy that meets a link that is down is lost. -/
def State.hrForward (s : State) (b : List Byte) (up ok : Bool) : State :=
  if s.hrLink up then s.hrTransit (onWire (putAt b 17 [BitVec.ofNat 8 (fieldAt b 17 1 - 1)]) ok) up else s

/-- The module enters address conflict (R418). -/
def State.hrConflict (s : State) (mac : Nat) : State :=
  if s.hr.conflict then s
  else ({ s with hr := { s.hr with conflict := true } }).post { code := 0x70, source := 0x90, args := [s.hr.addr, mac] }

/-- Is a frame for this node (R421)? -/
def State.hrForMe (s : State) (f : HFrame) : Bool :=
  f.da == ownMac || (f.da == groupMac && (f.dst == s.hr.addr || f.dst == 0xFFFF) && !s.hr.conflict)

/-- Services that a module acts on (R425). -/
def actedOn (service : Nat) : Bool := [0x01, 0x03, 0x05, 0x21, 0x30, 0x40].contains service
/-- Services of the table. -/
def knownService (service : Nat) : Bool := actedOn service || [0x02, 0x04, 0x06, 0x10, 0x20, 0x31, 0x41].contains service

/-- A frame for this node is accepted, unless it is a later copy (R423); one of an unknown service is answered with nothing (R425). -/
def State.hrAccept (s : State) (f : HFrame) : State :=
  let k := (f.src, f.seq, f.try_)
  if s.hr.seen.contains k then s.hrCount 5 1
  else
    let s := ({ s with hr := { s.hr with seen := (k :: s.hr.seen).take 64 } }).hrCount 1 1
    if actedOn f.service then { s with hr := { s.hr with inbox := s.hr.inbox ++ [f] } }
    else if knownService f.service then s
    else s.hrCount 3 1

/-- A frame is received, travelling downstream or upstream; `ok` says that its FCS proves right. -/
def State.hrReceive (s : State) (up : Bool) (b : List Byte) (ok : Bool) : State :=
  -- a frame travelling downstream arrives by HR_IN
  if !s.hrLink (!up) then s
  else
    let s := if ok then s else s.hrCount 10 1
    let f := frameOf b
    if malformed b then s.hrCount 3 1
    else if f.hops = 0 then s.hrCount 4 1
    else
      let foreign := f.src == s.hr.addr && f.sa != ownMac
      let s := if foreign then s.hrConflict f.sa else s
      let mine := f.src == s.hr.addr && f.sa == ownMac
      let me := s.hrForMe f
      let strip := !foreign && (mine || f.da == ownMac || (me && f.dst != 0xFFFF))
      let s := if strip then s else s.hrForward b up ok
      if me && ok && !mine then s.hrAccept f else s

/-! ## Notices (13 R432) -/

/-- The NOTICE frame of a log record. -/
def State.noticeFrame (s : State) (n : Notice) : HFrame :=
  s.hrFrame 0x20 (s.odNow 0x1100 6) n.frameSeq n.tries (leBytes 4 n.seq ++ leBytes 1 n.sev ++ zeros 3 ++ n.bytes)

/-- Notices that wait are sent while fewer than 8 await acknowledgement; a broadcast one is sent once. -/
def State.pumpNotices (s : State) : Nat → State
  | 0 => s
  | fuel + 1 =>
    match s.hr.notices with
    | [] => s
    | n :: rest =>
      let all := s.odNow 0x1100 6 == 0xFFFF
      if !s.hrCanSend || (!all && 8 ≤ s.hr.awaiting.length) then s
      else
        let q := s.hrSeq
        let m : Notice := { n with frameSeq := q.1, sent := s.ts }
        let s := q.2.hrSend (q.2.noticeFrame m)
        let s := { s with hr := { s.hr with notices := rest, awaiting := if all then s.hr.awaiting else s.hr.awaiting ++ [m] } }
        s.pumpNotices fuel

/-- A notice joins the queue of 64; of a full one the oldest is dropped and counted. -/
def State.notice (s : State) (n : Notice) : State :=
  let full := decide (64 ≤ s.hr.notices.length)
  let s := if full then s.hrCount 9 1 else s
  let s := { s with hr := { s.hr with notices := (if full then s.hr.notices.drop 1 else s.hr.notices) ++ [n] } }
  s.pumpNotices 64

end Sys2Proof.Machine
end

