-- ==== Sys2Proof/Machine/Dict.lean ====
section
/-!
DEFINITION. The object dictionary's service: what an entry reads, which writes are performed, and their effects (13 R434 to R451, R523;
10 R350, R351; 17 R511 to R515). Rows MAILBOX_READ to REPORT_DONE.
-/

namespace Sys2Proof.Machine

/-! ## Log records (15 R488, R489) -/

/-- Severity of an event code (15 R489). -/
def severityOf (code : Nat) : Nat :=
  if [0x01, 0x45].contains code then 0
  else if [0x02, 0x10, 0x12, 0x21, 0x24, 0x30, 0x43, 0x44, 0x50, 0x51, 0x60, 0x80].contains code then 1
  else if [0x03, 0x13, 0x22, 0x26, 0x33, 0x41, 0x42, 0x61, 0x81].contains code then 3
  else 2

/-- The 64 bytes of a record; a damaged one reads with CODE 0xFFFF (15 R478). -/
def LogRec.bytes (r : LogRec) : List Byte :=
  leBytes 4 r.seq ++ leBytes 2 (if r.damaged then 0xFFFF else r.ev.code) ++ leBytes 1 r.sev ++ leBytes 1 r.ev.source
    ++ leBytes 8 r.ev.time ++ leBytes 8 r.ev.step ++ (List.range 5).flatMap fun i => leBytes 8 (r.ev.args.getD i 0)

/-! ## Where entries are held (13 R523) -/

/-- Is a Volatile entry held elsewhere on the die? -/
def heldElsewhere (r : OdRow) (i sub : Nat) : Bool :=
  r.cls == 0 &&
  !(i == 0x1000 || i == 0x1100 || i == 0x1130 || (i == 0x2000 && sub != 0x30 && sub != 0x31) || i == 0x2001 ||
    (decide (0x2010 ≤ i) && decide (i ≤ 0x2015)) || i == 0x2020 || i == 0x2820 || i == 0x3000 || i == 0x3800 || i == 0x3801 || i == 0x4100 ||
    (decide (0x7040 ≤ i) && decide (i ≤ 0x7042)) || i == 0x7800 || i == 0x7801 || i == 0x8000 || i == 0x8020 || i == 0x8021 || i == 0x9000 ||
    i == 0x9010)

/-! ## Readings (13 R442 to R451 and the tables R441 names) -/

/-- The ceiling in force (14 R458). -/
def State.ceiling (s : State) : Nat :=
  match s.hk.ceil with
  | some c => min c (s.odv 0x3000 1)
  | none => s.odv 0x3000 1

/-- Does the thermal ceiling govern the rail (13 R446 OD 0x3000.04)? -/
def State.ceilSource (s : State) : Nat :=
  match s.hk.ceil with
  | some c => b2n (decide (c ≤ s.odv 0x3000 1))
  | none => 0

def State.chan (s : State) (c : Nat) : Chan := SMap.get {} s.hk.chans c
def State.fan (s : State) (f : Nat) : Fan := SMap.get {} s.hk.fans f

/-- Offsets of the tile counters that OD 0x7041 totals (15 R493). -/
def totalsAt (sub : Nat) : Nat := [0x130, 0x134, 0x138, 0x13C, 0x168].getD (sub - 1) 0

/-- Identity, measurement and start entries. -/
def State.liveIsland (s : State) (i sub : Nat) : Option Nat :=
  if i = 0x1000 then
    (match sub with
     | 5 => some Config.madeOn.toNat | 7 => some s.ts | 8 => some s.power.lastKind | 9 => some s.power.coldStarts
     | 0xA => some s.power.slotId | 0xB => some s.power.warmStarts | 0xC => some s.power.paramWrites | _ => none)
  else if i = 0x1100 then
    (match sub with | 3 => some s.hr.addr | 9 => some s.hr.sweepCtr | 0xA => some s.hrFlags | _ => none)
  else if i = 0x1130 then some (SMap.get 0 s.hr.cnt sub)
  else if i = 0x2000 then
    (if sub ≤ 0x18 then some (s.chan (sub - 1)).reading
     else match sub with
       | 0x19 => some s.hk.rounds | 0x1A => some s.hk.roundTs | 0x30 => some s.hk.beatMean | 0x31 => some s.hk.beatSlow | _ => none)
  else if i = 0x2001 then some (s.chan (sub - 1)).status
  else if 0x2010 ≤ i ∧ i ≤ 0x2015 then some (SMap.get 0 s.hk.rails (4 * (i - 0x2010) + sub))
  else if i = 0x2020 then some (if sub = 1 then s.hk.inPower else s.hk.maxPower)
  else if i = 0x2820 ∧ sub = 4 then some s.hk.thermal
  else if i = 0x3000 then
    (match sub with | 2 => some s.ceiling | 3 => some s.ceiling | 4 => some s.ceilSource | 5 => some s.power.pstate | _ => none)
  else if i = 0x3800 ∨ i = 0x3801 then
    (match sub with
     | 4 => some (s.fan (i - 0x3800)).speed | 5 => some (s.fan (i - 0x3800)).duty | 7 => some (b2n (s.fan (i - 0x3800)).fault) | _ => none)
  else if i = 0x4100 then (match sub with | 2 => some (1 + b2n s.stew.port) | 5 => some s.stew.changes | _ => none)
  else none

/-- Host port, Briar, Laurel and memory entries. -/
def State.liveDie (s : State) (i sub : Nat) : Option Nat :=
  if i = 0x4000 ∨ i = 0x4010 then
    (let p := s.port (i == 0x4010)
     match sub with | 6 => some (b2n p.up + 2 * p.rate + 16 * p.width) | 7 => some p.resets | _ => none)
  else if i = 0x4200 then some (if sub = 1 then min s.inFlightAll 65535 else SMap.get 0 s.modCnt (odKey i sub))
  else if i = 0x4800 ∧ sub = 5 then some s.briar.pos
  else if 0x4810 ≤ i ∧ i ≤ 0x4813 then
    (let p := s.bport (i - 0x4810)
     some (if sub = 1 then p.state else if p.state = 5 then p.lanes else 0))
  else if i = 0x6100 then
    (let l := s.laurel
     match sub with
     | 1 => some ((s.model.map (·.id)).getD 0)
     | 2 => some l.serving
     | 3 => some s.liveSeqs.length
     | 4 => some (match l.decl with | some d => ((List.range 8).map (s.freeCount d)).foldl (· + ·) 0 | none => 0)
     | 5 => some (l.kvdir.filter fun e => e.2.state == 3).length
     | 6 => some l.step.num
     | 7 => some l.lastStepNs
     | 8 => some l.nodes.length
     | _ => some l.genCtr)
  else if 0x7200 ≤ i ∧ i ≤ 0x7208 then
    (let k := i - 0x7200
     if sub = (if k < 8 then 6 else 5) then some ((s.tier k).pages.filter fun p => decide (1 ≤ p.2) && decide (p.2 ≤ 3)).length
     else some (SMap.get 0 (s.tier k).cnt sub))
  else if i = 0x7209 ∨ i = 0x7300 then some (SMap.get 0 s.modCnt (odKey i sub))
  else if 0x7210 ≤ i ∧ i ≤ 0x721F then some (SMap.get 0 s.partCnt (odKey i sub))
  else if i = 0x7400 then some (SMap.get 0 s.laurel.cnt sub)
  else if 0x7500 ≤ i ∧ i ≤ 0x7503 then some (SMap.get 0 (s.bport (i - 0x7500)).cnt sub)
  else if i = 0x7504 then some (SMap.get 0 s.briar.cnt sub)
  else none

/-- Totals, log, security and self-test entries. -/
def State.liveRest (s : State) (i sub : Nat) : Option Nat :=
  if i = 0x7010 then some s.drain.restarts
  else if 0x7020 ≤ i ∧ i ≤ 0x7039 then some (SMap.get {} s.arbs (2048 + (i - 0x7020))).longest
  else if i = 0x7040 then some (SMap.get 0 s.totals.tile (0x3C + 4 * sub))
  else if i = 0x7041 then some (SMap.get 0 s.totals.tile (totalsAt sub))
  else if i = 0x7042 then some ([s.totals.corr, s.totals.uncorr, s.totals.meshLost, s.totals.parity].getD (sub - 1) 0)
  else if i = 0x7100 then some (if sub = 7 then s.laurel.mxClip else SMap.get 0 s.laurel.satTotal (sub - 1))
  else if i = 0x7101 then some (SMap.get 0 s.laurel.satLast (sub - 1))
  else if i = 0x7102 then some s.laurel.drifts
  else if i = 0x7800 then some ([s.log.records.length, s.log.overwritten, s.log.seq, s.log.readSel, 0, s.log.lost].getD (sub - 1) 0)
  else if i = 0x7801 ∧ 3 ≤ sub then some (if sub = 3 then s.log.spilled else s.log.refused)
  else if i = 0x8000 ∧ sub = 3 then some s.sigRefused
  else if i = 0x8010 ∧ sub = 1 then some Config.chain.length
  else if i = 0x8020 then some (if sub = 2 then s.report.state else s.report.bytes.length)
  else if i = 0x9000 then
    -- no repair is in force, and none has been applied, where the start has not come to its step 5 (15 R486)
    (let due := s.power.startStep != 0 && decide (s.power.startStep ≤ 5)
     some ([0, s.march.result, s.march.columns, if due then 0 else s.march.soft, if due then 0 else s.march.fused].getD (sub - 1) 0))
  else if i = 0x9010 then (match sub with | 2 => some s.power.startStep | 3 => some s.power.startDur | 4 => some s.power.startFail | _ => none)
  else none

/-- Value of an entry of a type up to Q16.16. -/
def State.odNumber (s : State) (i sub : Nat) : Nat :=
  match s.liveIsland i sub with
  | some v => v
  | none =>
    match s.liveDie i sub with
    | some v => v
    | none =>
      match s.liveRest i sub with
      | some v => v
      | none => s.odNow i sub

/-- "Yunabry Semiconductor". -/
def vendorName : List Byte :=
  [0x59#8, 0x75#8, 0x6E#8, 0x61#8, 0x62#8, 0x72#8, 0x79#8, 0x20#8, 0x53#8, 0x65#8, 0x6D#8, 0x69#8, 0x63#8, 0x6F#8, 0x6E#8, 0x64#8, 0x75#8, 0x63#8,
   0x74#8, 0x6F#8, 0x72#8]
/-- "XV-8812-A". -/
def partName : List Byte := [0x58#8, 0x56#8, 0x2D#8, 0x38#8, 0x38#8, 0x31#8, 0x32#8, 0x2D#8, 0x41#8]

/-- A segment of 256 bytes. -/
def segment (l : List Byte) (n : Nat) : List Byte := (l.drop (256 * n)).take 256

/-- The record that OD 0x7800.04 names, read; an error met in the log memory strikes it (15 R478). -/
def State.logRead (s : State) (err : Nat) : Nat × List Byte × State :=
  match s.log.records.find? fun r => r.seq == s.log.readSel with
  | none => (1, [], s)
  | some r =>
    let bad (l : Log) : Log := { l with records := l.records.map fun x => if x.seq = r.seq then { x with damaged := true } else x }
    let s := if err = 1 then s.sramCorr 1
      else if err = 2 && !r.damaged then ({ s with log := bad s.log }).sramUncorr 0x90 12 (64 * ((r.seq - 1) % 4096)) else s
    let r := if err = 2 then { r with damaged := true } else r
    (0, r.bytes, { s with log := s.log.markRead r.seq })

/-- A string, octet string or record: status, bytes, and the state after the read. -/
def State.odOctets (s : State) (i sub err : Nat) : Nat × List Byte × State :=
  if i = 0x1000 then
    (0, (match sub with | 1 => vendorName | 2 => partName | 4 => Config.serial | _ => beBytes 6 ownMac), s)
  else if i = 0x7800 then s.logRead err
  else if i = 0x8000 then (0, s.ownerNow, s)
  else if i = 0x8010 then (0, segment Config.chain (sub - 2), s)
  else if s.report.state = 2 && 256 * (sub - 1) < s.report.bytes.length then (0, segment s.report.bytes (sub - 1), s)
  else (1, [], s)

/-- A read of an entry: status, bytes, and the state after it (10 R351, 13 R434, R436; stale 03 R110, 16 R502). -/
def State.odRead (s : State) (i sub err : Nat) : Nat × List Byte × State :=
  if sub = 0 then (match odTop i with | some n => (0, leBytes 1 n, s) | none => (1, [], s))
  else
    match odRow i sub with
    | none => (1, [], s)
    | some r =>
      if r.right = 2 then (2, [], s)
      else if s.power.isolated && heldElsewhere r i sub then (7, leBytes r.len (SMap.get r.dflt s.captured (odKey i sub)), s)
      else if 8 ≤ r.ty then s.odOctets i sub err
      else (0, leBytes r.len (s.odNumber i sub), s)

/-- Entries a row stands for. -/
def OdRow.each (r : OdRow) : List (Nat × Nat) :=
  (List.range (r.i1 + 1 - r.i0)).flatMap fun i => (List.range (r.s1 + 1 - r.s0)).map fun j => (r.i0 + i, r.s0 + j)

/-- The mesh loses its power: what the island has captured of the entries held elsewhere stays readable (03 R110). DEDUCED: their values at that moment (log 30). -/
def State.capture (s : State) : State :=
  let es := (odTable.filter fun r => r.cls == 0).flatMap fun r => (r.each.filter fun x => heldElsewhere r x.1 x.2).map fun x => (r.dflt, x)
  { s with captured := es.foldl (fun m e => SMap.set e.1 m (odKey e.2.1 e.2.2) (s.odNumber e.2.1 e.2.2)) [] }

/-! ## Checks of a write -/

/-- May the asker write the entry (10 R343)? A Hedgerow write has been checked on arrival (13 R427). -/
def State.mayWrite (s : State) (q : DictReq) (i sub : Nat) : Bool :=
  match q with
  | .mailbox p f _ _ _ _ _ =>
    f.val == 0 &&
    (p == s.stew.port ||
     (decide (0x5200 ≤ i) && decide (i ≤ 0x520F) && decide (1 ≤ sub) && decide (sub ≤ 0xD) && s.ownerOf (i - 0x5200) == some p))
  | .hedgerow .. => true

/-- May an entry stand in the sweep list (13 R430)? -/
def sweepable (v : Nat) : Bool :=
  v == 0 || (decide (v < 2 ^ 24) &&
    (if v % 256 = 0 then (odTop (v / 256)).isSome
     else match odRow (v / 256) (v % 256) with | some r => decide (r.ty ≤ 7) | none => false))

/-- Does a spill ring lie wholly in the board tier (15 R492)? -/
def spillOk (base count : Nat) : Bool :=
  base == 0 || (base % 64 == 0 &&
    (match placeOf base with | .tier 8 off => decide (off + 64 * count ≤ tierBytes 8) | _ => false))

/-- What an entry's own description adds to its range and use: the status of a write of `v`, of bytes `d`. -/
def State.writeRule (s : State) (i sub v : Nat) (d : List Byte) : Nat :=
  if 0x2800 ≤ i ∧ i ≤ 0x2813 ∧ sub = 1 then (if s.odNow i 2 < v then 3 else 0)
  else if 0x2800 ≤ i ∧ i ≤ 0x2813 ∧ sub = 2 then (if v < s.odNow i 1 then 3 else 0)
  else if i = 0x1120 then (if sweepable v then 0 else 3)
  else if i = 0x5000 then
    -- a change of owner, while the partition is in use (10 R340)
    (if v != s.odNow i sub && (!(s.holdersOf (sub - 1)).isEmpty || s.liveSeqs.any fun q => (s.seq q).part == sub - 1) then 6 else 0)
  else if i = 0x7801 ∧ sub = 1 then (if spillOk v (s.odNow 0x7801 2) then 0 else 3)
  else if i = 0x8000 ∧ sub = 1 then (if v = 1 && s.ownerNow.all (· == 0#8) then 3 else 0)
  else if i = 0x8020 then (if d.length != 64 then 4 else if s.report.state = 1 then 6 else 0)
  else if i = 0x9000 then (if v = 3 && s.model.isSome then 6 else 0)
  else 0

/-- Status of a write (13 R434 to R440); where several apply, the first in this order (log 31). The owner key hash, once set, takes no write (R440). -/
def State.writeStatus (s : State) (q : DictReq) (i sub : Nat) (d : List Byte) : Nat :=
  if sub = 0 then (if (odTop i).isSome then 2 else 1)
  else
    match odRow i sub with
    | none => 1
    | some r =>
      if r.right = 0 || r.right = 3 || (i == 0x8000 && sub == 2 && s.ownerNow.any (· != 0#8)) then 2
      else if (if r.ty ≤ 7 then d.length != r.len else decide (r.len < d.length)) then 4
      else if !s.mayWrite q i sub then 5
      else if r.ty ≤ 7 && !odInRange r i sub (leNat d) then 3
      else s.writeRule i sub (leNat d) d

/-! ## Effects of a write -/

/-- A Stored or Warm-kept entry takes its value in force. -/
def State.odPut (s : State) (i sub v : Nat) : State := { s with od := odStore s.od i sub (odField i v) }

/-- A change of N of an arbiter class acts from each arbiter's next grant decision, and the count towards the next starvation grant restarts (03 R108): at the
arbiters that have counter blocks, and, of the ports' class, at the arbiter for places and the queue selectors. -/
def State.newN (s : State) (sub : Nat) : State :=
  let s := { s with arbs := s.arbs.keys.foldl (fun m a => if arbClass a = sub then SMap.mod {} m a fun x => { x with since := 0 } else m) s.arbs }
  if sub = 5 then
    ([false, true] : List PortId).foldl (fun s p => s.modPort p fun x => { x with sel := { x.sel with since := 0 } }) { s with places := { s.places with since := 0 } }
  else s

/-- The duty of a fan: 100 % in thermal states 1 to 3 and while the other has a fault (14 R464, R469). -/
def State.fanDuty (s : State) (f : Nat) : Nat :=
  if s.hk.thermal != 0 || (s.fan (1 - f)).fault then 100
  else if s.odv (0x3800 + f) 1 = 1 then s.odv (0x3800 + f) 2 else s.hk.duty

/-- The fans run at their duties, once the controller governs them (14 R453). -/
def State.governFans (s : State) : State :=
  if !s.hk.fanControl then s
  else
    let d (f : Nat) (m : SMap Fan) : SMap Fan := SMap.mod {} m f fun x => { x with duty := s.fanDuty f }
    { s with hk := { s.hk with fans := d 1 (d 0 s.hk.fans) } }

/-- Serving leaves the halted state: Laurel attempts the replay again (11 R387). -/
def State.leaveHalted (s : State) : State :=
  if s.laurel.serving != 3 then s
  else s.modLaurel fun l => { l with serving := 1, aborts := 0, replayDue := true, wantBoundary := true }

/-- A report is requested (17 R511); without the mesh or the identity key it fails at once (R512). -/
def State.askReport (s : State) (nonce : List Byte) : State :=
  { s with report := { state := if s.power.isolated || !s.keyReady then 3 else 1, nonce := nonce } }

/-- A write that is no Stored entry's is performed. -/
def State.writeNow (s : State) (i sub : Nat) (d : List Byte) : State :=
  let v := leNat d
  if i = 0x1000 then { s with power := { s.power with defaultsAtStart := true } }
  else if i = 0x6000 then s.leaveHalted
  else if i = 0x7800 then { s with log := { s.log with readSel := v } }
  else if i = 0x8020 then s.askReport d
  else if i = 0x9000 then
    { s with march := { s.march with requested := v }, laurel := { s.laurel with wantBoundary := true } }
  else s.odPut i sub v

/-- A Stored write is held by both copies of the parameter memory (13 R438). -/
def State.commitWrite (s : State) (w : StoredWrite) : State :=
  let s := s.wroteParam
  if w.index = 0x8000 && w.sub = 2 then { s with ownerKey := w.value } else s.odPut w.index w.sub (leNat w.value)

/-! ## Answers -/

/-- A request is answered: a mailbox with its status, length and data and a function event, Hedgerow with a response (10 R350, 13 R425). -/
def State.dictAnswer (s : State) (q : DictReq) (st : Nat) (d : List Byte) : State :=
  match q with
  | .mailbox p f live _ _ _ _ =>
    if !live then s
    else
      let s := s.modFn p f.val fun x =>
        { x with mbox := { x.mbox with busy := false, status := st, rlength := d.length, data := x.mbox.data.write 0 d } }
      s.fnEvent p f.val 0
  | .hedgerow src seq service i sub _ =>
    let head := leBytes 2 i ++ leBytes 1 sub ++ leBytes 1 st
    if service = 1 then s.hrRespond src seq 2 (st == 0 || st == 7) (head ++ leBytes 2 d.length ++ zeros 2 ++ d)
    else s.hrRespond src seq 4 (st == 0) head

/-- A write is served: refused, performed, or, of a Stored entry, on its way to the parameter memory. -/
def State.dictWrite (s : State) (q : DictReq) (i sub : Nat) (d : List Byte) : State :=
  let st := s.writeStatus q i sub d
  if st != 0 then s.dictAnswer q st []
  else
    match odRow i sub with
    | some r =>
      if r.cls = 2 then
        let s := if i = 0x5080 && s.odNow i sub != leNat d then s.newN sub else s
        { s with stored := s.stored ++ [⟨i, sub, d, q⟩] }
      else (s.writeNow i sub d).dictAnswer q 0 []
    | none => s

/-- Status, type, access right, class, longest length of an entry. -/
def describe (i sub : Nat) : List Nat :=
  if sub = 0 then (if (odTop i).isSome then [0, 1, 3, 3, 1] else [1, 0, 0, 0, 0])
  else match odRow i sub with
    | some r => [0, r.ty, r.right, r.cls, r.len]
    | none => [1, 0, 0, 0, 0]

/-- A DESCRIBE_REQ is answered (13 R425). -/
def State.answerDescribe (s : State) (src seq i sub : Nat) : State :=
  let d := describe i sub
  s.hrRespond src seq 6 (d.getD 0 1 == 0) (leBytes 2 i ++ leBytes 1 sub ++ (d.take 4).flatMap (leBytes 1) ++ zeros 1 ++ leBytes 2 (d.getD 4 0))

/-- The request at the front is served. -/
def State.dictServe (s : State) (err : Nat) : State :=
  match s.dictQ with
  | [] => s
  | q :: rest =>
    let s := { s with dictQ := rest }
    let w := (match q with | .mailbox _ _ _ w _ _ _ => w | .hedgerow _ _ service _ _ _ => service == 3)
    let i := (match q with | .mailbox _ _ _ _ i _ _ => i | .hedgerow _ _ _ i _ _ => i)
    let sub := (match q with | .mailbox _ _ _ _ _ j _ => j | .hedgerow _ _ _ _ j _ => j)
    let d := (match q with | .mailbox _ _ _ _ _ _ d => d | .hedgerow _ _ _ _ _ d => d)
    match q with
    | .hedgerow src seq 5 _ _ _ => s.answerDescribe src seq i sub
    | .hedgerow _ _ 4 _ _ _ => s.dictAnswer q 5 []
    | _ =>
      if w then s.dictWrite q i sub d
      else
        let r := s.odRead i sub err
        r.2.2.dictAnswer q r.1 r.2.1

/-- Does the island serve the dictionary: it is powered, out of reset, and step 1 of a start has ended (16 R502)? -/
def State.serves (s : State) : Bool := s.power.on && s.power.bypassOpen

/-! ## The rows -/

/-- A mailbox's request register as a host writes it (10 R350). -/
def mailboxWord (op index sub len : Nat) : Nat := op + 256 * index + 2 ^ 24 * sub + 2 ^ 32 * len

def execMailboxRead (p : PortId) (f : FnId) (index : BitVec 16) (sub : Byte) (s : State) : Host.Outcome State Fault Refusal :=
  s.served (if s.reach p f.val then s.mailbox p f (mailboxWord 1 index.toNat sub.toNat 0) else s)

def execMailboxWrite (p : PortId) (f : FnId) (index : BitVec 16) (sub : Byte) (len : Nat) (s : State) : Host.Outcome State Fault Refusal :=
  s.served (if s.reach p f.val then s.mailbox p f (mailboxWord 2 index.toNat sub.toNat (len % 512)) else s)

def execDictionaryServe (err : Fin 3) (s : State) : Host.Outcome State Fault Refusal :=
  s.served (if s.serves then s.dictServe err.val else s)

/-- Both copies hold the oldest Stored write that was served: it completes, and a setting whose description names no moment takes effect (13 R439): a fan's mode and
duty among them. -/
def State.storedDone (s : State) : State :=
  match s.stored with
  | [] => s
  | w :: rest => ((({ s with stored := rest }).commitWrite w).governFans).dictAnswer w.req 0 []

def execStoredWriteDone (s : State) : Host.Outcome State Fault Refusal := s.fanned (if s.serves then s.storedDone else s)

/-! ## MARCH_DONE (15 R484 to R486) -/

/-- A march's faults: result code, columns, soft repairs, and an event for each column without a spare. -/
def State.marchFound (s : State) (m : MarchIn) : State :=
  let s := { s with march := { s.march with
    columns := m.columns
    soft := min 65535 (s.march.soft + (m.columns - m.noSpare.length)) } }
  s.postAll (m.noSpare.map fun x => { code := 0x81, source := 0x90, args := [x.1, x.2] })

/-- OD 0x9000.02 after a march. -/
def marchResult (m : MarchIn) : Nat := if !m.noSpare.isEmpty then 4 else if m.columns != 0 then 3 else 2

/-- What a march leaves of a tile: its cache invalid; kept contents with corrected words written back (mode 2 tests the core's memories too); or zeros. -/
def Tile.marched (mode : Nat) (x : Tile) : Tile :=
  let keep (m : SMap Nat) : SMap Nat := m.filter fun e => e.2 != 2
  let x := { x with cache := [] }
  if mode = 3 then
    { x with scratch := [], words := [], vreg := [], vregPoison := [], acc := [], accPoison := [], active := {}, shadow := {}
             core := { x.core with imem := [], dmem := [], imemErr := [], dmemErr := [] } }
  else
    { x with words := keep x.words
             core := if mode = 2 then { x.core with imemErr := keep x.core.imemErr, dmemErr := keep x.core.dmemErr } else x.core }

/-- What a march leaves of a unit. -/
def PUnit.marched (mode : Nat) (x : PUnit) : PUnit :=
  if mode = 3 then { x with buffer := [], bufWords := [], store := [] } else { x with bufWords := x.bufWords.filter fun e => e.2 != 2 }

/-- The memories after a march. A destructive one zeroes the Region Tables and Laurel's tables with the rest; what a port's descriptor buffer and a Briar
replay buffer hold is taken as kept (log 32). -/
def State.marched (s : State) (mode : Nat) : State :=
  let s := s.tiles.keys.foldl (fun (s : State) t => s.modTile t (Tile.marched mode)) s
  let s := s.units.keys.foldl (fun (s : State) u => s.modUnit u (PUnit.marched mode)) s
  if mode = 3 then
    let s := (List.range 9).foldl (fun (s : State) k => s.setTier k { s.tier k with entries := [] }) s
    s.modLaurel fun l => { l with slots := [], seqs := [], kvdir := [] }
  else s

/-- How long a march of a mode lasts, in ns (15 R484). -/
def marchTime (mode : Nat) : Nat := if mode = 1 then 40000000 else if mode = 2 then 190000000 else 120000000

/-- MARCH_DONE: the march ends once its time is over, gives its result and releases the boundary, which waits for step-quiet where that has fallen (04 R143). -/
def State.endMarch (s : State) (m : MarchIn) : State :=
  let mode := s.march.running
  if mode = 0 || !s.drain.heldMarch || s.ts < s.march.began + marchTime mode then s
  else
    let s := (s.marched mode).marchFound m
    let s := { s with march := { s.march with running := 0, result := marchResult m } }
    let s := s.post { code := 0x80, source := 0x90, args := [mode, marchResult m, m.columns] }
    let s := { s with drain := { s.drain with heldMarch := false } }
    if s.drain.heldImage || !s.drain.quiet then s else s.releaseStep

def execMarchDone (m : MarchIn) (s : State) : Host.Outcome State Fault Refusal := s.inner (if s.isReady then s.endMarch m else s)

/-! ## REPORT_DONE (17 R510 to R515) -/

/-- M_PARAMS' input: every Stored RW entry but the hard-repair list, in increasing index and subindex. -/
def State.paramBytes (s : State) : List Byte :=
  let rows := odTable.filter fun r => r.cls == 2 && r.right == 1 && r.i0 != 0x9201
  let es := rows.flatMap fun r => r.each.map fun x => (x.1, x.2, if x.1 = 0x8000 && x.2 = 2 then s.ownerKey else leBytes r.len (s.odv x.1 x.2))
  let es := sortBy (fun (a b : Nat × Nat × List Byte) => decide (odKey a.1 a.2.1 < odKey b.1 b.2.1)) es
  es.flatMap fun e => leBytes 2 e.1 ++ leBytes 1 e.2.1 ++ leBytes 2 e.2.2.length ++ e.2.2

/-- An entry's value in its own width. -/
def State.odBytes (s : State) (i sub : Nat) : List Byte := leBytes (match odRow i sub with | some r => r.len | none => 0) (s.odNumber i sub)

/-- M_PARTITIONS' input. -/
def State.partitionBytes (s : State) : List Byte :=
  ((List.range 16).flatMap fun p =>
    s.odBytes 0x5000 (p + 1) ++ s.odBytes 0x5001 (p + 1) ++ (List.range 13).flatMap fun j => s.odBytes (0x5200 + p) (j + 1)) ++
  ([false, true].flatMap fun p => (List.range 16).flatMap fun f =>
    let x := s.fn p f
    leBytes 2 x.qBase ++ leBytes 2 x.qCount ++ leBytes 1 x.qPart) ++ leBytes 1 (1 + b2n s.stew.port)

/-- Is a unit's store measured by the filler? -/
def State.unmeasured (s : State) (u : Nat) : Bool := (s.unit u).load || !(s.unit u).crcValid

/-- M_MICRO's input. -/
def State.microBytes (s : State) : List Byte :=
  (List.range 512).flatMap fun u =>
    if s.unmeasured u then List.replicate 4096 0xFF#8
    else (List.range 1024).flatMap fun w => leBytes 4 (SMap.get 0 (s.unit u).store w)

/-- The context string JASPER-1. -/
def reportContext : List Byte := [0x4A#8, 0x41#8, 0x53#8, 0x50#8, 0x45#8, 0x52#8, 0x2D#8, 0x31#8]

/-- Report bytes 0x0000 to 0x01FF (17 R514). -/
def State.reportBody (s : State) : List Byte :=
  let skipped := (List.range 512).countP fun (u : Nat) => s.unmeasured u
  let flags := b2n (s.odv 0x8000 1 == 1) + 2 * b2n (s.ownerKey.any (· != 0#8)) + 4 * b2n s.model.isSome
    + 8 * b2n ((s.model.map (·.signed)).getD false) + 16 * b2n (skipped != 0) + 32 * b2n (s.power.lastKind == 2)
  leBytes 4 0x5250414A ++ leBytes 2 1 ++ leBytes 2 flags ++ leBytes 4 5139 ++ leBytes 4 skipped ++ padTo 64 s.report.nonce
    ++ leBytes 8 s.ts ++ leBytes 8 s.laurel.step.num ++ padTo 12 Config.serial ++ leBytes 2 0x8812 ++ leBytes 2 0xB0
    ++ leBytes 4 s.power.coldStarts ++ leBytes 4 s.power.warmStarts ++ leBytes 8 ((s.model.map (·.id)).getD 0)
    ++ sha3_512 Config.fuseImage ++ sha3_512 s.paramBytes ++ sha3_512 s.partitionBytes
    ++ (match s.model with | some m => sha3_512 (m.header.take 0x80) | none => zeros 64)
    ++ sha3_512 s.microBytes ++ zeros 64

/-- Is an image load or unload running, which holds a report (17 R512)? -/
def State.imageRuns (s : State) : Bool := s.ops.any fun o => (o.opcode == 6 || o.opcode == 7) && o.stage == .running

/-- REPORT_DONE: the report is signed, a dozing stack having woken for its store reads; without the mesh it fails. -/
def State.reportDone (s : State) : State :=
  if s.report.state != 1 then s
  else if s.power.isolated || !s.keyReady then { s with report := { s.report with state := 3 } }
  else if s.imageRuns then s
  else
    let s := (List.range 8).foldl (fun (s : State) k => s.setTier k { s.tier k with doze := false }) s
    let s := { s with power := { s.power with pstate := if s.power.pstate = 3 then 2 else s.power.pstate } }
    let body := s.reportBody
    let sig := Config.mldsaSign s.free (reportContext ++ body)
    { s with free := s.free + 1, report := { s.report with state := 2, bytes := body ++ padTo 4627 sig } }

def execReportDone (s : State) : Host.Outcome State Fault Refusal := s.rested (if s.serves then s.reportDone else s)

end Sys2Proof.Machine
end

