-- ==== Sys2Proof/Machine/Hedgerow.lean ====
section
/-!
DEFINITION. Rows HEDGEROW_FRAME to NOTICE_RESEND (13 R415 to R433) and EVENT_INTAKE (15 R487 to R492).
-/

namespace Sys2Proof.Machine

/-! ## HEDGEROW_FRAME -/

/-- Whether a transit buffer has room is the state's to say (13 R424), not the operand's. -/
def execHedgerowFrame (up : Bool) (bytes : List Byte) (fcsOk _room : Bool) (s : State) : Host.Outcome State Fault Refusal :=
  s.served (if s.serves then s.hrReceive up bytes fcsOk else s)

/-! ## Services (13 R425 to R433) -/

/-- The oldest accepted frame is acted on, where it is of a service. -/
def State.hrTake (s : State) (service : Nat) (g : State → HFrame → State) : State :=
  match s.hr.inbox with
  | [] => s
  | f :: rest => if s.serves && f.service == service then g { s with hr := { s.hr with inbox := rest } } f else s

/-- A request that carries a controller's last SEQ again is not performed: its kept response is sent again (R428), or is still to come. -/
def State.hrOnce (s : State) (f : HFrame) (g : State → State) : State :=
  match s.hrKept f.src f.seq with
  | some k => s.hrSend (s.hrFrame k.1 f.src f.seq 0 k.2)
  | none =>
    let same (q : DictReq) : Bool := match q with | .hedgerow src seq _ _ _ _ => isController src && src == f.src && seq == f.seq | _ => false
    if s.dictQ.any same || s.stored.any (fun w => same w.req) then s else g s

/-- INDEX and SUB of a payload. -/
def HFrame.index (f : HFrame) : Nat := fieldAt f.payload 0 2
def HFrame.sub (f : HFrame) : Nat := fieldAt f.payload 2 1

/-- A request joins the queue of 16, or is discarded and counted (R426). -/
def State.hrQueue (s : State) (f : HFrame) (service : Nat) (data : List Byte) : State :=
  let n := s.dictQ.countP fun (q : DictReq) => match q with | .hedgerow .. => true | _ => false
  if 16 ≤ n then s.hrCount 7 1 else { s with dictQ := s.dictQ ++ [.hedgerow f.src f.seq service f.index f.sub data] }

/-- READ_REQ is queued for serving. -/
def State.hrRead (s : State) (f : HFrame) : State := s.hrOnce f fun s => s.hrQueue f 1 []

def execReadReq (s : State) : Host.Outcome State Fault Refusal := s.served (s.hrTake 1 State.hrRead)

/-- Is a WRITE_REQ permitted (R427)? -/
def State.hrMayWrite (s : State) (f : HFrame) : Bool :=
  let perm := s.odNow 0x1100 8
  let only := (match odRow f.index f.sub with | some r => r.steward | none => false)
  isController f.src && perm.testBit 0 && (!only || perm.testBit 2)

/-- WRITE_REQ is checked, then queued: a refused one, too, is answered in its turn (10 R350, 13 R426). -/
def State.hrWrite (s : State) (f : HFrame) : State :=
  s.hrOnce f fun s =>
    if s.hrMayWrite f then s.hrQueue f 3 ((f.payload.drop 8).take (fieldAt f.payload 4 2)) else s.hrQueue f 4 []

def execWriteReq (s : State) : Host.Outcome State Fault Refusal := s.served (s.hrTake 3 State.hrWrite)

/-- DESCRIBE_REQ is answered, in its turn behind the requests that wait (R426). -/
def State.hrDescribe (s : State) (f : HFrame) : State :=
  s.hrOnce f fun s => if s.dictQ.isEmpty then s.answerDescribe f.src f.seq f.index f.sub else s.hrQueue f 5 []

def execDescribeReq (s : State) : Host.Outcome State Fault Refusal := s.served (s.hrTake 5 State.hrDescribe)

/-- STATUS of a handover (R427, R433). -/
def State.handoverStatus (s : State) (f : HFrame) : Nat :=
  let port := fieldAt f.payload 0 1
  if !(isController f.src && (s.odNow 0x1100 8).testBit 1) then 3 else if port != 1 && port != 2 then 2 else 0

/-- HANDOVER_REQ is served at the stewardship register. Naming the steward changes nothing. -/
def State.hrHandover (s : State) (f : HFrame) : State :=
  s.hrOnce f fun s =>
    let st := s.handoverStatus f
    let to_ := fieldAt f.payload 0 1 == 2
    let s := if st = 0 && to_ != s.stew.port then s.passSteward to_ 3 else s
    s.hrRespond f.src f.seq 0x31 (st == 0) (leBytes 1 st ++ leBytes 1 (1 + b2n s.stew.port))

def execHandoverReq (s : State) : Host.Outcome State Fault Refusal := s.served (s.hrTake 0x30 State.hrHandover)

/-- PROBE is answered. -/
def State.hrProbe (s : State) (f : HFrame) : State :=
  s.hrSend (s.hrFrame 0x41 f.src f.seq 0
    (beBytes 6 ownMac ++ leBytes 2 s.hr.addr ++ leBytes 1 s.power.slotId ++ leBytes 1 s.power.pstate ++ leBytes 2 0x8812 ++ leBytes 2 0xB0
      ++ leBytes 1 s.hrFlags))

def execProbe (s : State) : Host.Outcome State Fault Refusal := s.served (s.hrTake 0x40 State.hrProbe)

/-- NOTICE_ACK ends the resending of its notice, whose record has thereby been read (R432, 15 R487). -/
def State.hrAck (s : State) (f : HFrame) : State :=
  let n := fieldAt f.payload 0 4
  if s.hr.awaiting.any (·.seq == n) then
    let s := { s with hr := { s.hr with awaiting := s.hr.awaiting.filter (·.seq != n) }, log := s.log.markRead n }
    s.pumpNotices 64
  else s

def execNoticeAck (s : State) : Host.Outcome State Fault Refusal := s.served (s.hrTake 0x21 State.hrAck)

/-! ## SWEEP (13 R429 to R431) -/

/-- An item of a sweep: ISTATUS is 0, 1 or 7; an entry that cannot be read counts as none. -/
def State.sweepItem (s : State) (v : Nat) : List Byte :=
  let r := s.odRead (v / 256) (v % 256) 0
  let st := if r.1 = 0 || r.1 = 7 then r.1 else 1
  leBytes 2 (v / 256) ++ leBytes 1 (v % 256) ++ leBytes 1 st ++ leBytes 8 (if st = 1 then 0 else leNat r.2.1)

def State.sweepPayload (s : State) : List Byte :=
  let places := ((List.range 32).map fun i => s.odNow 0x1120 (i + 1)).filter (· != 0)
  leBytes 2 s.hr.sweepCtr ++ leBytes 1 places.length ++ leBytes 1 (b2n s.power.isolated) ++ leBytes 4 s.hk.rounds ++ leBytes 8 s.ts
    ++ places.flatMap s.sweepItem

/-- A sweep is due, with a payload of the state in which it is built; one that can leave by neither link is counted. With sweeps disabled none is, and the counter waits
(log 33). -/
def State.sweepDue (s : State) (payload : State → List Byte) : State :=
  let s := { s with hr := { s.hr with sweepAt := s.hr.sweepAt + 10000000 } }
  if s.odNow 0x1100 5 = 0 then s
  else
    let s := { s with hr := { s.hr with sweepCtr := (s.hr.sweepCtr + 1) % 65536 } }
    if s.hrCanSend then
      let q := s.hrSeq
      q.2.hrSend (q.2.hrFrame 0x10 (s.odNow 0x1100 4) q.1 0 (payload s))
    else s.hrCount 8 1

/-- A sweep falls due each 10 ms. -/
def State.sweep (s : State) : State :=
  if !s.serves || s.ts < s.hr.sweepAt + 10000000 then s else s.sweepDue State.sweepPayload

def execSweep (s : State) : Host.Outcome State Fault Refusal := s.served s.sweep

/-! ## NOTICE_RESEND (13 R432) -/

/-- A notice not acknowledged for 50 ms is resent; after its third resend it is dropped and counted. -/
def State.resend (s : State) (seq : Nat) : State :=
  match s.hr.awaiting.find? (·.seq == seq) with
  | none => s
  | some n =>
    if !s.serves || s.ts < n.sent + 50000000 then s
    else if n.tries < 3 then
      let m : Notice := { n with tries := n.tries + 1, sent := s.ts }
      let s := { s with hr := { s.hr with awaiting := s.hr.awaiting.map fun (x : Notice) => if x.seq = seq then m else x } }
      s.hrSend (s.noticeFrame m)
    else
      let s := ({ s with hr := { s.hr with awaiting := s.hr.awaiting.filter (·.seq != seq) } }).hrCount 9 1
      s.pumpNotices 64

def execNoticeResend (seq : Nat) (s : State) : Host.Outcome State Fault Refusal := s.served (s.resend seq)

/-! ## EVENT_INTAKE (15 R487 to R492) -/

/-- LOG_SEQ of the next record: it skips 0. -/
def nextLogSeq (n : Nat) : Nat := if (n + 1) % 2 ^ 32 = 0 then 1 else (n + 1) % 2 ^ 32

/-- The event to be entered next: of those received in the oldest's beat, the one of lowest SOURCE. -/
def firstEvent : List Ev → Option Ev
  | [] => none
  | e :: r => some (r.foldl (fun best x => if x.time = e.time && x.source < best.source then x else best) e)

/-- An event becomes the newest record; of a full log it overwrites the oldest, counted where that one has not been read. -/
def Log.enter (l : Log) (e : Ev) : Log :=
  let n := nextLogSeq l.seq
  let full := decide (4096 ≤ l.records.length)
  let lost := full && !((l.records.head?.map (·.read)).getD true)
  { l with
    seq := n
    records := (if full then l.records.drop 1 else l.records) ++ [{ seq := n, ev := e, sev := severityOf e.code, read := false }]
    overwritten := if lost then inc32 l.overwritten else l.overwritten }

/-- A record is spilled: the island issues a maintenance write of its 64 bytes to the ring, which enters the mesh at router (0, 5) and carries no partition (R492, 03 R110). -/
def State.spillRecord (s : State) (r : LogRec) : State :=
  let base := s.odv 0x7801 1
  if base = 0 then s
  else s.ask { id := 0, agent := .housekeeping, kind := .write, dest := ⟨none, base + 64 * (r.seq % s.odv 0x7801 2)⟩, len := 64,
               data := ⟨r.bytes, false⟩, purpose := .spill r.seq }

/-- Records entered while the mesh was unpowered are spilled, oldest first. -/
def State.spillHeld (s : State) : State :=
  if s.power.isolated || s.log.spillNext = 0 then s
  else
    -- LOG_SEQ wraps: a record is not earlier where the difference is below half its range (15 R495)
    let due := s.log.records.filter fun r => decide ((r.seq + 2 ^ 32 - s.log.spillNext) % 2 ^ 32 < 2 ^ 31)
    due.foldl State.spillRecord { s with log := { s.log with spillNext := 0 } }

/-- An event is entered in the log: a record, a function event in both PFs, a notice, a spill. -/
def State.record (s : State) (e : Ev) : State :=
  let s := { s with log := s.log.enter e }
  match s.log.records.getLast? with
  | none => s
  | some r =>
    let s := if s.power.isolated then
        { s with log := { s.log with spillNext := if s.log.spillNext = 0 then r.seq else s.log.spillNext } }
      else (s.bothPfs 5).spillRecord r
    if s.odNow 0x1100 7 ≤ r.sev then s.notice { seq := r.seq, sev := r.sev, bytes := r.bytes } else s

/-- EVENT_INTAKE: the next event of the intake is recorded. -/
def State.intake (s : State) : State :=
  match firstEvent s.log.intake with
  | some e => if s.serves then ({ s with log := { s.log with intake := s.log.intake.erase e } }).record e else s
  | none => s

def execEventIntake (s : State) : Host.Outcome State Fault Refusal := s.served s.intake

end Sys2Proof.Machine
end

