-- ==== Sys2Proof/Machine/PowerOps.lean ====
section
/-!
DEFINITION. Rows POWER_APPLIED to MODULE_RESET_RELEASE, HEDGEROW_LINK_UP to TIMEBASE_TICK, OVERVOLTAGE_LOCKOUT_RELEASE, and the operations
they share: entering module reset (01 R14 to R27, R37, 16 R503), its release (R26), and power on and off (R16, R19).
-/

namespace Sys2Proof.Machine

/-! ## Shared operations -/

/-- Stored writes that were served stay performed; no response is sent (16 R503). -/
def State.commitServed (s : State) : State := s.stored.foldl State.commitWrite { s with stored := [] }

/-- Power is lost in the course of the writes to the parameter memory: each leaves the old value or the new one (13 R438), a free choice. -/
def State.tearServed (s : State) : State :=
  s.stored.foldl (fun (s : State) w => let d := s.draw; if d.1.toNat % 2 = 1 then d.2.commitWrite w else d.2) { s with stored := [] }

/-- Both PCIe links are down. -/
def State.linksDown (s : State) : State :=
  [false, true].foldl (fun (s : State) p => s.modPort p fun x => { x with up := false, rate := 0, width := 0 }) s

/-- Everything in flight on the die is lost, with no record (16 R503). -/
def State.loseFlight (s : State) : State :=
  let s := { s with txns := [], launches := [], launchPkts := [], notices := [], folds := [], unitNotices := [], hedges := [] }
  { s with hostReads := [], ops := [], resetting := [], drain := {} }

/-- The island while it is held in reset (01 R20, R22, R23, R36, R37; 16 R503). -/
def Power.held (x : Power) (cause rail : Nat) : Power :=
  { x with
    phase := .inReset, readyN := false, overtempN := false, bypassOpen := false, pwmReleased := true
    selfRefresh := true, pstate := 0, causeLatch := cause, causeRail := rail }

/-- Measurement stops, and begins anew where a start sets `roundAt`; the fans run at full speed (01 R36). -/
def Hk.stopped : Hk := { roundAt := 0 }

/-- Module reset is entered, with the cause that START will give (01 R25, R27; 15 R491). One already in force keeps its cause. -/
def State.enterReset (s : State) (cause rail : Nat) : State :=
  if !s.power.on || s.power.phase == .inReset then s
  else
    let s' := s.commitServed.loseFlight.linksDown
    { s' with
      power := { s.power.held cause rail with paramWrites := s'.power.paramWrites }
      hk := Hk.stopped, dictQ := [], hr := { s'.hr with inUp := false, outUp := false, lineDown := {}, lineUp := {} } }

/-- The next start is a cold start (01 R26; 02 R59; 14 R459). -/
def State.coldNext (s : State) : State := { s with power := { s.power with coldNext := true } }

/-- Module reset ends, where nothing holds it: SLOT_ID is sampled and the kind of the start is chosen (01 R24, R26). -/
def State.leaveReset (s : State) (straps : BitVec 6) : State :=
  let x := s.power
  if x.on && x.phase == .inReset && !x.modReset && !x.pwrPresOpen then
    { s with power := { x with slotId := straps.toNat, phase := if x.readyOnce && !x.coldNext then .warm else .cold } }
  else s

/-- The module switches on: the always-on rail becomes good, SLOT_ID is sampled, and a cold start is due unless the module is held in reset (01 R16, R24). -/
def State.powerOn (s : State) (straps : BitVec 6) : State :=
  let x := s.power
  let phase := if x.modReset || x.pwrPresOpen then Phase.inReset else .cold
  { s with power := { x with
      on := true, ovLock := false, phase := phase, slotId := straps.toNat, causeLatch := 0, causeRail := 0
      readyOnce := false, coldNext := true, fromSlumber := false } }

/-- Everything unpowered (01 R20; 14 R466). -/
def Power.unpowered (x : Power) (tooHigh : Bool) : Power :=
  { x with
    on := false, ovLock := tooHigh, phase := .off, readyN := false, overtempN := false, bypassOpen := false, pwmReleased := true
    coreRail := false, stackRail := false, dramRail := false, boardRail := false, isolated := true, selfRefresh := false
    fromSlumber := false, pstate := 0, readyOnce := false, coldNext := true, defaultsAtStart := false }

/-- The module switches off with no orderly shutdown (01 R19). What it holds is lost; the next cold start gives every part its value. -/
def State.powerOff (s : State) (tooHigh : Bool) : State :=
  let s' := s.tearServed.loseFlight.linksDown
  { s' with
    power := { s.power.unpowered tooHigh with paramWrites := s'.power.paramWrites }
    hk := Hk.stopped, dictQ := [], hr := { s'.hr with inUp := false, outUp := false, lineDown := {}, lineUp := {} } }

/-! ## The power input (01 R16 to R19) -/

/-- POWER_APPLIED: the input has risen to `mv`. -/
def State.powerApplied (s : State) (mv : Nat) (straps : BitVec 6) : State :=
  if !s.power.on && !s.power.ovLock && decide (46500 ≤ mv) && decide (mv < 58000) then s.powerOn straps else s

def execPowerApplied (mv : Nat) (straps : BitVec 6) (s : State) : Host.Outcome State Fault Refusal := s.still (s.powerApplied mv straps)

/-- INPUT_LOW_EXCURSION: an excursion below 48.0 V has ended: its lowest voltage and its duration. -/
def State.inputLow (s : State) (mv us : Nat) : State :=
  if s.serves && decide (44000 ≤ mv) && decide (mv < 48000) then s.post { code := 0x02, source := 0x90, args := [mv, us] } else s

def execInputLowExcursion (mv us : Nat) (s : State) : Host.Outcome State Fault Refusal := s.served (s.inputLow mv us)

/-- INPUT_LOCKOUT: below 44.0 V, or above 58.0 V. A module that is off remembers which. -/
def State.inputLockout (s : State) (tooHigh : Bool) : State :=
  if s.power.on then s.powerOff tooHigh else { s with power := { s.power with ovLock := tooHigh } }

def execInputLockout (tooHigh : Bool) (s : State) : Host.Outcome State Fault Refusal := s.still (s.inputLockout tooHigh)

/-- OVERVOLTAGE_LOCKOUT_RELEASE: the input has fallen back to `mv`. -/
def State.lockoutRelease (s : State) (mv : Nat) (straps : BitVec 6) : State :=
  if !s.power.on && s.power.ovLock && decide (mv ≤ 57000) then
    if 46500 ≤ mv then s.powerOn straps else { s with power := { s.power with ovLock := false } }
  else s

def execOvervoltageLockoutRelease (mv : Nat) (straps : BitVec 6) (s : State) : Host.Outcome State Fault Refusal :=
  s.still (s.lockoutRelease mv straps)

/-! ## Module reset (01 R14, R25 to R27, R37; 02 R59; 14 R459) -/

/-- ALWAYS_ON_RAIL_LOSS: the island loses power-good, and what its rail kept, the reset-cause latch too (15 R491). -/
def State.railLoss (s : State) : State :=
  if s.power.on then
    let s' := s.tearServed
    let s := (({ s' with power := { s.power with paramWrites := s'.power.paramWrites } }).enterReset 0 0).coldNext
    { s with power := { s.power with causeLatch := 0, causeRail := 0 } }
  else s

def execAlwaysOnRailLoss (s : State) : Host.Outcome State Fault Refusal := s.still s.railLoss

def execPwrPresOpen (s : State) : Host.Outcome State Fault Refusal :=
  s.still ({ s with power := { s.power with pwrPresOpen := true } }.enterReset 2 0)

/-- PWR_PRES_CLOSE: releases the module reset that it held. -/
def execPwrPresClose (straps : BitVec 6) (s : State) : Host.Outcome State Fault Refusal :=
  s.still (if s.power.pwrPresOpen then ({ s with power := { s.power with pwrPresOpen := false } }).leaveReset straps else s)

/-- MODULE_RESET: MOD_RESET_N is low for `ns`; of a pulse from 1 µs to 10 µs, `taken` says whether it takes effect. -/
def State.moduleReset (s : State) (ns : Nat) (taken : Bool) : State :=
  if decide (10000 ≤ ns) || (decide (1000 ≤ ns) && taken) then
    ({ s with power := { s.power with modReset := true } }).enterReset 1 0
  else s

def execModuleReset (ns : Nat) (taken : Bool) (s : State) : Host.Outcome State Fault Refusal := s.still (s.moduleReset ns taken)

/-- MODULE_RESET_RELEASE: MOD_RESET_N is high, or a module reset that the module entered by itself ends. -/
def execModuleResetRelease (straps : BitVec 6) (s : State) : Host.Outcome State Fault Refusal :=
  s.still (({ s with power := { s.power with modReset := false } }).leaveReset straps)

/-- Is a rail commanded on (14 R457)? -/
def Power.railOn (x : Power) (rail : Nat) : Bool :=
  match rail with
  | 1 => x.coreRail
  | 2 => x.stackRail
  | 3 => x.dramRail
  | 4 => x.boardRail
  | _ => true

/-- A rail commanded on has failed: that is entered in the log, where the island is out of reset, and the module enters module reset; the next start is cold
(14 R459). -/
def State.railFault (s : State) (rail status cause causeRail : Nat) : State :=
  if s.power.on && s.power.railOn rail then
    let e : Ev := { code := 0x03, source := 0x90, args := [rail, status], time := s.ts, step := s.laurel.step.num }
    let s' := if s.serves then s.record e else s
    (({ s' with power := s.power }).enterReset cause causeRail).coldNext
  else s

/-- REGULATOR_FAULT. -/
def State.regulatorFault (s : State) (rail status : Nat) : State := s.railFault rail status 4 rail

/-- CORE_POWER_GOOD_LOSS: below 0.55 V while the rail is commanded on (02 R59); the STATUS_WORD that its event carries (14 R459) is the regulator's, a free value. -/
def State.coreRailLoss (s : State) : State := let d := s.draw; d.2.railFault 1 (d.1.toNat % 65536) 3 0

def execCorePowerGoodLoss (s : State) : Host.Outcome State Fault Refusal := s.still s.coreRailLoss

def execRegulatorFault (rail : Fin 6) (status : BitVec 16) (s : State) : Host.Outcome State Fault Refusal :=
  s.still (s.regulatorFault rail.val status.toNat)

/-! ## Hedgerow's links and the timebase (01 R40; 02 R60) -/

/-- HEDGEROW_LINK_UP: the PHY of the pair on HR_IN or HR_OUT has its link; notices that waited leave (13 R432). -/
def State.hrLinkUp (s : State) (inPair : Bool) : State :=
  if s.serves then
    let s := { s with hr := if inPair then { s.hr with inUp := true } else { s.hr with outUp := true } }
    s.pumpNotices 64
  else s

def execHedgerowLinkUp (up : Bool) (s : State) : Host.Outcome State Fault Refusal := s.served (s.hrLinkUp up)

/-- HEDGEROW_LINK_DOWN: what waited for the pair does not leave by it (13 R423, R424). -/
def execHedgerowLinkDown (up : Bool) (s : State) : Host.Outcome State Fault Refusal :=
  s.served (if up then { s with hr := { s.hr with inUp := false, lineUp := {} } } else { s with hr := { s.hr with outUp := false, lineDown := {} } })

/-- TIMEBASE_TICK: the timestamp advances by 40 ns while the always-on rail is good, module reset included (16 R505); it never wraps
(15 R494). A Hedgerow pair that has become idle begins its next frame (13 R424). -/
def execTimebaseTick (s : State) : Host.Outcome State Fault Refusal :=
  s.timed (if s.power.on then (({ s with ts := s.ts + 40 }).hrStart false).hrStart true else s)

end Sys2Proof.Machine
end

