-- ==== Sys2Proof/Machine/Thermal.lean ====
section
/-!
DEFINITION. Rows CHANNEL_CONVERSION and MEASUREMENT_ROUND_END: the measurement round, thermal control, the fans (14 R452 to R469; 01 R23, R31 to R36;
13 R444 to R447; 15 R493), entry to Slumber (14 R466), and rows IDLE_ENTER, PRIVET_DOZE_ENTER and PRIVET_DOZE_EXIT (14 R466, R467; 08 R282).
-/

namespace Sys2Proof.Machine

/-! ## Conversions (14 R454 to R456; 01 R33, R34) -/

/-- 2 atanh(z / 900000) = ln(rth / 10000) for an input of z + 900000 µV, as a fixed-point number of 12 decimal places (14 R456). -/
def thermLn (z : Int) : Int :=
  let one : Int := 1000000000000
  let q := z * one / 900000
  let terms := (List.range 200).foldl (fun (acc : Int × Int) (k : Nat) => (acc.1 + acc.2 / (2 * (k : Int) + 1), acc.2 * q / one * q / one)) (0, q)
  2 * terms.1

/-- The formula of 14 R456 at an input in microvolts, in sixteenths of a degree Celsius, rounded down: t = 3435 × 298.15 / (3435 + 298.15 ln) − 273.15. -/
def thermFormula (uv : Nat) : Int :=
  let one : Int := 1000000000000
  let den := 343500 * one + 29815 * thermLn ((uv : Int) - 900000)
  (16 * 343500 * 29815 * one - 16 * 27315 * den) / (100 * den)

/-- A reading whose exact value lies from `t` to just under `t + 1` sixteenths, and which may lie up to `bound` sixteenths from it (14 R454): `pick` of them, clamped. -/
def near (t pick bound : Int) : Int := if bound = 0 then t else t + max (1 - bound) (min bound pick)

/-- A thermistor reading in sixteenths of a degree: within 0.5 °C of the formula from 0 °C to 125 °C; elsewhere the formula's value (log 71). -/
def thermReading (ch uv : Nat) : Int :=
  let t := thermFormula uv
  near t (Config.thermPick ch uv) (if 0 ≤ t ∧ t ≤ 2000 then 8 else 0)

/-- A remote diode's temperature in sixteenths of a degree, rounded down (14 R455): currents in the ratio 1 : 4 : 16 give two steps of the thermal voltage times
ln 4 times the ideality factor, and 30 µA and 120 µA across the series resistance, which four of the first less the second cancels. PRESUMED (log 71): the diode law, with
q/k = 11604.518 K/V, so that 1 µV of that difference is 0.0027902968 K at an ideality factor of 1. -/
def diodeFormula (ch : Nat) (x : Sample) : Int :=
  let d : Int := 4 * ((x.b : Int) - x.a) - ((x.c : Int) - x.b)
  let n : Int := max 1 (Config.ideality ch)
  (16 * (d * 27902968 * 10 ^ 6 - 27315 * 10 ^ 8 * n)) / (10 ^ 10 * n)

/-- A diode reading: within 1.0 °C from 0 °C to 105 °C, within 2.0 °C from −20 °C to 0 °C and from 105 °C to 125 °C; elsewhere the formula's value (14 R454; log 71). -/
def diodeReading (ch : Nat) (x : Sample) : Int :=
  let t := diodeFormula ch x
  near t (Config.diodePick ch x.a x.b x.c) (if 0 ≤ t ∧ t < 1680 then 16 else if -320 ≤ t ∧ t ≤ 2000 then 32 else 0)

/-- A voltage-sense reading as Q16.16: a 12-bit code of full scale: 60.0 V, the always-on rail's, 1.200 V. -/
def senseReading (ch code : Nat) : Nat :=
  let c := min code 4096
  if ch = 20 then 960 * c else if ch = 21 then Config.vsns1Full * c / 4096 else c * 96 / 5

/-- One conversion: status and reading; one whose status is not 0 reads 0 (13 R444). Temperatures are in steps of 0.0625 °C. -/
def convertChan (ch : Nat) (x : Sample) : Nat × Nat :=
  if ch < 12 then
    (if x.opened then (3, 0) else if x.short then (2, 0)
     else (0, toBits 32 (4096 * diodeReading ch x)))
  else if ch < 20 then
    (if 1750000 < x.a then (1, 0) else if x.a < 50000 then (2, 0) else (0, toBits 32 (4096 * thermReading ch x.a)))
  else (0, senseReading ch x.a)

/-! ## What a channel counts as (14 R460) -/

/-- Warn and trip thresholds in force, signed. -/
def State.warnAt (s : State) (c : Nat) : Int := sext 32 (s.odv (0x2800 + c) 1)
def State.tripAt (s : State) (c : Nat) : Int := sext 32 (s.odv (0x2800 + c) 2)

/-- The temperature that a participating channel counts by at the end of a round: none where it is left out; a faulty one stands at its warn threshold. -/
def State.level (s : State) (c : Nat) : Option Int :=
  let x := s.chan c
  if s.hk.left.contains c || x.status == 1 then none
  else if x.faulty then some (s.warnAt c)
  else if x.status = 0 then some (sext 32 x.reading) else none

/-- The channels that count: number, level, warn threshold. -/
def State.levels (s : State) : List (Nat × Int × Int) :=
  (List.range 20).filterMap fun c => (s.level c).map fun v => (c, v, s.warnAt c)

def hotAt (x : Nat × Int × Int) : Bool := decide (x.2.2 ≤ x.2.1)
/-- At least 2.0 °C below. -/
def coolAt (x : Nat × Int × Int) : Bool := decide (x.2.1 + 131072 ≤ x.2.2)

/-- The hot channel furthest above its warn threshold, the lowest of equals. -/
def hottest : List (Nat × Int × Int) → Option (Nat × Int)
  | [] => none
  | x :: r => let y := r.foldl (fun (b x : Nat × Int × Int) => if b.2.1 - b.2.2 < x.2.1 - x.2.2 then x else b) x; some (y.1, y.2.1)

/-! ## Slumber (14 R466) -/

/-- A march that runs, or is asked for, is gone (13 R451: OD 0x9000.02 then reads idle; DEDUCED, log 32). -/
def March.lost (m : March) : March := { m with requested := 0, running := 0, result := if m.running = 0 then m.result else 0 }

/-- The die loses its power: what is in flight, its model and its state (16 R506). A report in progress fails (17 R512). -/
def State.loseDie (s : State) : State :=
  let s := s.loseFlight
  let s := { s with tiles := [], tileTags := [], units := [], laurel := {}, model := none, march := s.march.lost, portGot := [] }
  if s.report.state = 1 then { s with report := { s.report with state := 3 } } else s

/-- Slumber is entered: READY_N, the links with their port resets, self-refresh, the rails. Where the mesh has no power there are no ports to reset and nothing to
capture. -/
def State.enterSlumber (s : State) : State :=
  let s' := (if s.power.isolated then s else ((s.portReset false 1).portReset true 1).capture).loseDie
  { s' with hk := s.hk, power := { s.power with
      readyN := false, phase := .slumber, pstate := 4, bypassOpen := true, selfRefresh := true, fromSlumber := true
      coreRail := false, stackRail := false, isolated := true } }

/-- Both fans at 100 % duty (14 R464). -/
def fullSpeed (m : SMap Fan) : SMap Fan :=
  SMap.mod {} (SMap.mod {} m 0 fun x => { x with duty := 100 }) 1 fun x => { x with duty := 100 }

/-- A trip, decided in its channel's slot (14 R461, R465): of a participating channel that counts by its reading, once thermal control has begun (R453), in every state in
which rounds run: at Ready, in a start, in one that has stopped. -/
def State.tripCheck (s : State) (ch : Nat) : State :=
  let x := s.chan ch
  if decide (ch < 20) && s.hk.fanControl && !s.hk.left.contains ch && !x.faulty && x.rawStatus == 0
      && decide (s.tripAt ch ≤ sext 32 x.raw) then
    let s := { s with power := { s.power with overtempN := true }, hk := { s.hk with coolRounds := 0 } }
    if s.hk.thermal != 3 then
      let s := s.post { code := 0x13, source := 0x90, args := [ch, x.raw] }
      ({ s with hk := { s.hk with thermal := 3, ceil := none, fans := fullSpeed s.hk.fans } }).enterSlumber
    else s
  else s

/-- Has slot `n` of the round begun: each takes 1.333 ms, a third of 4 ms (14 R452)? Slot 24 is the round's end, at 32 ms. -/
def State.slotDue (s : State) (n : Nat) : Bool := decide (3 * s.hk.roundAt + 4000000 * n ≤ 3 * s.ts)

/-- A channel has been converted. -/
def State.converted (s : State) (ch : Nat) (x : Sample) : State :=
  let r := convertChan ch x
  let s := { s with hk := { s.hk with
    slot := ch + 1, chans := SMap.mod {} s.hk.chans ch fun c => { c with rawStatus := r.1, raw := r.2 } } }
  s.tripCheck ch

/-- CHANNEL_CONVERSION: the channels are converted in their order, each once its slot has begun. -/
def State.convert (s : State) (ch : Nat) (x : Sample) : State :=
  if s.serves && s.hk.slot == ch && s.slotDue ch then s.converted ch x else s

def execChannelConversion (ch : Fin 24) (x : Sample) (s : State) : Host.Outcome State Fault Refusal := s.still (s.convert ch.val x)

/-! ## The end of a round: publishing (14 R452; 02 R56; 15 R493) -/

/-- What the round gives of rail `r`: the 54 V input's and the always-on rail's voltages are those of voltage-sense channels 0 and 1 (14 R457), the rest the regulators' telemetry. -/
def railReading (chans : SMap Chan) (r : Nat) (x : Nat × Nat × Nat) : Nat × Nat × Nat :=
  let v (c : Nat) : Nat := (SMap.get {} chans c : Chan).raw
  if r = 0 then (v 20, x.2) else if r = 5 then (v 21, x.2) else x

/-- The readings of the round. -/
def Hk.publish (h : Hk) (r : RoundIn) (ts : Nat) : Hk :=
  let chans := (List.range 24).foldl (fun (m : SMap Chan) c => SMap.mod {} m c fun x => { x with reading := x.raw, status := x.rawStatus }) h.chans
  let rails := (List.range 6).foldl (fun (m : SMap Nat) i =>
    let x := railReading h.chans i (r.rails.getD i (0, 0, 0))
    SMap.set 0 (SMap.set 0 (SMap.set 0 m (4 * i + 1) x.1) (4 * i + 2) x.2.1) (4 * i + 3) x.2.2) h.rails
  { h with
    chans := chans, slot := 0, rounds := (h.rounds + 1) % 2 ^ 32, roundTs := ts, roundAt := ts, rails := rails
    inPower := r.inPower, maxPower := max h.maxPower r.inPower }

/-- The tiles' hidden increments are collected and cleared; the totals saturate (13 R448). -/
def State.collect (s : State) : State :=
  s.tiles.keys.foldl (fun (s : State) t =>
    let x := s.tile t
    let tot := x.ctl.hidden.foldl (fun (m : SMap Nat) e => SMap.mod 0 m e.1 (satAdd 64 · e.2)) s.totals.tile
    { s.setTile t { x with ctl := { x.ctl with hidden := [] } } with totals := { s.totals with tile := tot } }) s

/-- Channels whose setting leaves them out. -/
def State.leftOut (s : State) : List Nat := (List.range 20).filter fun c => s.odNow (0x2800 + c) 3 == 0

/-- Beats that each tile has counted since the round began. -/
def State.roundBeats (s : State) : List Nat :=
  (List.range 128).map fun t => ((s.tile t).ctl.beatCount + 2 ^ 48 - SMap.get 0 s.hk.beatMarks t) % 2 ^ 48

/-- A period in ps, rounded down, of `n` beats in `ns`; of none, the largest that 16 bits hold (02 R56; DESIGN CHOICE, log 88). -/
def beatPeriod (ns n : Nat) : Nat := if n = 0 then 65535 else min 65535 (1000 * ns / n)

/-- The beat periods of the round that ends, by the beat counters against the timebase (02 R56): of all tiles' beats together, and of the slowest tile's. -/
def State.beats (s : State) : State :=
  let ns := s.ts - s.hk.roundAt
  let l := s.roundBeats
  { s with hk := { s.hk with
    beatMean := beatPeriod (128 * ns) l.sum, beatSlow := beatPeriod ns (l.foldl min (2 ^ 48))
    beatMarks := s.tiles.keys.foldl (fun (m : SMap Nat) t => SMap.set 0 m t (s.tile t).ctl.beatCount) [] } }

/-- Publishing; beat periods and tile counters only while the mesh is powered. Participation takes effect. -/
def State.publishRound (s : State) (r : RoundIn) : State :=
  let s := if s.power.isolated then s else s.beats.collect
  let s := { s with hk := s.hk.publish r s.ts }
  { s with hk := { s.hk with left := s.leftOut } }

/-- Sensor faults: two successive rounds with status 2 or 3 raise one, two with status 0 end it (14 R460). -/
def Chan.count (x : Chan) (takesPart : Bool) : Chan :=
  if !takesPart then { x with bad := 0, good := 0, faulty := false }
  else if x.status = 2 ∨ x.status = 3 then { x with bad := min 2 (x.bad + 1), good := 0, faulty := x.faulty || decide (1 ≤ x.bad) }
  else if x.status = 0 then { x with bad := 0, good := min 2 (x.good + 1), faulty := x.faulty && decide (x.good < 1) }
  else { x with bad := 0, good := 0 }

def State.sensors (s : State) : State :=
  (List.range 20).foldl (fun (s : State) c =>
    let x := s.chan c
    let y := x.count (!s.hk.left.contains c)
    let s := { s with hk := { s.hk with chans := SMap.set {} s.hk.chans c y } }
    if y.faulty && !x.faulty then s.post { code := 0x14, source := 0x90, args := [c, y.status] } else s) s

/-! ## The thermal state (14 R461 to R463) -/

/-- 0.60 V. -/
def ceilFloor : Nat := 0x999A

/-- A step down from the ceiling in force. -/
def State.stepDown (s : State) : State :=
  let c := max ceilFloor (s.ceiling - s.odv 0x2820 2)
  { s with hk := { s.hk with ceil := some c, stepTs := s.ts } }

/-- The slow-down request on entry to warn. -/
def State.slowDown (s : State) (h : Nat × Int) : State :=
  let s := s.post { code := 0x10, source := 0x90, args := [h.1, toBits 32 h.2, s.ceiling - s.odv 0x2820 2] }
  [false, true].foldl (fun (s : State) p => if (s.port p).up then s.fnEvent p 0 2 else s) s

/-- Enforcement begins. -/
def State.enforce (s : State) (h : Nat × Int) : State :=
  let s := s.stepDown
  ({ s with hk := { s.hk with thermal := 2 } }).post { code := 0x11, source := 0x90, args := [h.1, s.ceiling] }

/-- A step up; enforcement ends once the thermal ceiling reaches the written one. -/
def State.stepUp (s : State) : State :=
  let c := (s.hk.ceil.getD 0) + s.odv 0x2820 2
  if s.odv 0x3000 1 ≤ c then
    let s := { s with hk := { s.hk with ceil := none, thermal := 0, stepTs := s.ts } }
    s.post { code := 0x12, source := 0x90, args := [s.ceiling] }
  else { s with hk := { s.hk with ceil := some c, stepTs := s.ts } }

/-- State 1, the round that entered it included: back to normal, or, hot once the grace time is over, enforcement. -/
def State.warned (s : State) (hot : Option (Nat × Int)) : State :=
  match hot with
  | none => { s with hk := { s.hk with thermal := 0 } }
  | some h => if s.hk.warnTs + 1000000 * s.odv 0x2820 1 ≤ s.ts then s.enforce h else s

/-- The 32nd round below every warn threshold ends a trip: a warm start with Keep-memory leaves Slumber (14 R467). -/
def State.coolDown (s : State) (below : Bool) : State :=
  let n := if below then s.hk.coolRounds + 1 else 0
  let s := { s with hk := { s.hk with coolRounds := n } }
  if 32 ≤ n ∧ s.power.phase = .slumber then
    { s with hk := { s.hk with thermal := 0, coolRounds := 0 }, power := { s.power with phase := .warm, pstate := 0, causeLatch := 5, causeRail := 0 } }
  else s

/-- The decision at the end of a round. -/
def State.thermal (s : State) : State :=
  let l := s.levels
  let hot := hottest (l.filter hotAt)
  let below := l.all fun x => !hotAt x
  let s := if below then { s with power := { s.power with overtempN := false } } else s
  match s.hk.thermal with
  | 0 =>
    (match hot with
     | some h => (({ s with hk := { s.hk with thermal := 1, warnTs := s.ts } }).slowDown h).warned hot
     | none => s)
  | 1 => s.warned hot
  | 2 =>
    if s.hk.stepTs + 1000000 * s.odv 0x2820 3 ≤ s.ts then
      (if hot.isSome then s.stepDown else if l.all coolAt then s.stepUp else s)
    else s
  | _ => s.coolDown below

/-! ## Fans (14 R464, R468, R469; 01 R36) -/

/-- 2 (t − target) rounded to the nearest whole percent, halves away from zero, of Q16.16. -/
def dutyStep (t target : Int) : Int :=
  let d := 4 * (t - target)
  if 0 ≤ d then (d + 65536) / 131072 else -((-d + 65536) / 131072)

/-- The automatic duty. With no Hornbeam diode that counts it stays. -/
def State.autoDuty (s : State) : Nat :=
  if s.hk.thermal != 0 then 100
  else
    match (s.levels.filter fun x => decide (x.1 < 4)).map (·.2.1) with
    | [] => s.hk.duty
    | t :: r => (max 20 (min 100 ((s.hk.duty : Int) + dutyStep (r.foldl max t) (s.odv 0x3810 1)))).toNat

/-- A fan's speed and its fault. -/
def Fan.measure (x : Fan) (speed limit : Nat) : Fan :=
  let x := { x with speed := speed }
  if speed < limit ∧ 20 ≤ x.duty then { x with low := min 3 (x.low + 1), good := 0, fault := x.fault || decide (2 ≤ x.low) }
  else if limit ≤ speed then { x with low := 0, good := min 3 (x.good + 1), fault := x.fault && decide (x.good < 2) }
  else { x with low := 0, good := 0 }

def State.fanRead (s : State) (r : RoundIn) (f : Nat) : State :=
  let x := s.fan f
  let y := x.measure (min 65535 (r.fans.getD f 0 / s.odv (0x3800 + f) 3)) (s.odv (0x3800 + f) 6)
  let s := { s with hk := { s.hk with fans := SMap.set {} s.hk.fans f y } }
  if y.fault && !x.fault then s.post { code := 0x15, source := 0x90, args := [f, y.speed] } else s

/-- Both fans at the end of a round; from the first on, the controller governs them (14 R453). -/
def State.fansEnd (s : State) (r : RoundIn) : State :=
  let s := (s.fanRead r 0).fanRead r 1
  ({ s with hk := { s.hk with duty := s.autoDuty, fanControl := true }, power := { s.power with pwmReleased := false } }).governFans

/-- A round is over: readings and totals are published, and sensors, thermal state and fans are decided. -/
def State.roundOver (s : State) (r : RoundIn) : State := (((s.publishRound r).sensors).thermal).fansEnd r

/-- MEASUREMENT_ROUND_END, once every channel has been converted and 32 ms are over. -/
def State.roundEnd (s : State) (r : RoundIn) : State :=
  if s.serves && s.hk.slot == 24 && s.slotDue 24 then s.roundOver r else s

def execMeasurementRoundEnd (r : RoundIn) (s : State) : Host.Outcome State Fault Refusal := s.still (s.roundEnd r)

/-! ## Idle and Doze (14 R466, R467; 08 R282) -/

/-- Are the units of every stack in Doze? -/
def State.allDoze (s : State) : Bool := (List.range 8).all fun k => (s.tier k).doze

def execIdleEnter (s : State) : Host.Outcome State Fault Refusal :=
  s.rested (if s.isReady && s.power.pstate == 1 && s.restDue then
    { s with power := { s.power with pstate := if s.allDoze then 3 else 2 } } else s)

/-- The stack whose units an address of the control range reaches: command registers, broadcast window, buffers. -/
def unitStackAt (a : Nat) : Option Nat :=
  match placeOf a with
  | .control off =>
    if 0x4000000 ≤ off ∧ off < 0x4020000 then some ((off - 0x4000000) / 0x4000)
    else if 0x4100000 ≤ off ∧ off < 0x4180000 then some ((off - 0x4100000) / 0x10000)
    else if 0x5000000 ≤ off ∧ off < 0x7000000 then some ((off - 0x5000000) / 0x400000)
    else none
  | _ => none

/-- Does traffic for a stack's units wait at its port? -/
def State.unitTraffic (s : State) (k : Nat) : Bool := s.txns.any fun q => q.stage == .atHome && q.dest.module.isNone && unitStackAt q.dest.addr == some k

/-- What a unit keeps in Doze: its store and STORE_CRC. -/
def PUnit.dozed (x : PUnit) : PUnit := { store := x.store, crc := x.crc, crcValid := x.crcValid, crcDue := x.crcDue }

/-- PRIVET_DOZE_ENTER: the 64 units have been idle for 100 µs. -/
def State.dozeEnter (s : State) (k : Nat) : State :=
  if s.isReady && !(s.tier k).doze && s.dozeDue k && !s.unitTraffic k then
    let s := ((List.range 64).map (64 * k + ·)).foldl (fun (s : State) u => s.modUnit u PUnit.dozed) s
    let s := s.setTier k { s.tier k with doze := true }
    if s.power.pstate = 2 ∧ s.allDoze = true then { s with power := { s.power with pstate := 3 } } else s
  else s

def execPrivetDozeEnter (k : StackId) (s : State) : Host.Outcome State Fault Refusal := s.rested (s.dozeEnter k.val)

/-- PRIVET_DOZE_EXIT: the units are powered; their buffers read as zero. -/
def execPrivetDozeExit (k : StackId) (s : State) : Host.Outcome State Fault Refusal :=
  s.inner (if s.isReady && (s.tier k).doze && s.unitTraffic k then s.setTier k { s.tier k with doze := false } else s)

end Sys2Proof.Machine
end

