-- ==== Sys2Proof/Machine/Briar.lean ====
section
/-!
DEFINITION. The Briar rows: port states and the neighbour check (12 R391 to R394), frames, acknowledgement and retry (R397 to R402), delivery and
forwarding of packets (R400, R403, R407 to R409), remote requests and responses (R408 to R411), and link-state packets (R406).
-/

namespace Sys2Proof.Machine

/-! ## Port states (12 R393, R394, R399, R401, R406) -/

/-- The far end that a port expects (12 R393): position and port. -/
def State.expectedEnd (s : State) (b : Nat) : Nat × Nat := (s.along (decide (2 ≤ b)) s.briar.pos (b % 2 + 1), (b + 2) % 4)

/-- Slots of an accepted packet that has been taken are free again (12 R402). -/
def BriarPort.free (x : BriarPort) (set n : Nat) : BriarPort := { x with freed := x.freed.zipIdx.map fun e => if e.2 = set then e.1 + n else e.1 }

/-- An LSA waits for a port that is UP; it moves to the high set where that hop crosses the boundary (12 R403). -/
def State.lsaOn (s : State) (p : BriarPkt) (b : Nat) : State :=
  if (s.bport b).state = 5 then
    let west := decide (2 ≤ b)
    let q := { p with west := west, high := p.high || s.crosses west (b % 2 + 1), dst := (s.expectedEnd b).1, via := none }
    s.modBport b fun x => { x with queue := x.queue ++ [q] }
  else s

/-- This module's port states, on every UP port. -/
def State.lsaSend (s : State) : State :=
  if s.isReady && s.briar.n != 0 then
    let n := (s.briar.lsaSeq + 1) % 65536
    let s := { s with briar := { s.briar with lsaSeq := n } }
    let p : BriarPkt := { ty := 6, west := false, high := false, dst := 0, src := s.briar.pos, extra := n :: (List.range 4).map fun b => (s.bport b).state }
    (List.range 4).foldl (fun (s : State) b => s.lsaOn p b) s
  else s

/-- The slots of a received packet are free again (12 R402), unless its port has left UP since. -/
def State.freeVia (s : State) (p : BriarPkt) : State :=
  match p.via with
  | some (b, set, turn) => if (s.bport b).turn = turn then s.modBport b fun x => x.free set p.slots else s
  | none => s

/-- A port enters a state, and is as `f` makes it: an event (15 R489), where its link's part in the map changes a recomputation of the routes (R407), and an LSA (R406).
One that leaves UP discards what its replay buffer and its queues hold (R401). -/
def State.portTo (s : State) (b new : Nat) (f : BriarPort → BriarPort := id) : State :=
  let x := s.bport b
  let gone := x.state == 5 && new != 5
  let y : BriarPort :=
    if gone then { state := new, cable := x.cable, since := s.ts, inbox := x.inbox, cnt := x.cnt, turn := x.turn + 1 } else { x with state := new, since := s.ts }
  let s := (s.setBport b (f y)).post { code := 0x60, source := 0x8C + b, args := [b, x.state, new] }
  let s := if gone then x.transit.foldl State.freeVia s else s
  let s := if (x.state == 5) != (new == 5) then s.ringCount 4 1 else s
  s.lsaSend

/-- Do the ports run (16 R507)? -/
def State.portsOn (s : State) (b : Nat) : Bool := s.isReady && (s.bport b).state != 0

/-- CBL_PRSNT_CHANGE: the pin of a connector. -/
def State.cableChange (s : State) (b : Nat) (present : Bool) : State :=
  let s := s.modBport b fun x => { x with cable := present }
  if !s.portsOn b then s
  else if present then (if (s.bport b).state = 1 then s.portTo b 2 else s)
  else if (s.bport b).state = 1 then s else s.portTo b 1

def execCblPrsntChange (b : BriarId) (present : Bool) (s : State) : Host.Outcome State Fault Refusal := s.inner (s.cableChange b.val present)

/-- LOSS_OF_SIGNAL. -/
def State.signalLost (s : State) (b : Nat) : State :=
  if s.portsOn b && decide (3 ≤ (s.bport b).state) then (s.portTo b 2).modBport b fun x => x.count 8 1 else s

def execLossOfSignal (b : BriarId) (s : State) : Host.Outcome State Fault Refusal := s.inner (s.signalLost b.val)

def execSignalDetect (b : BriarId) (s : State) : Host.Outcome State Fault Refusal :=
  s.inner (if s.portsOn b.val && (s.bport b.val).state == 2 then s.portTo b.val 3 else s)

/-- TRAINING_TIMEOUT: training or retraining has lasted 60 ms. -/
def State.trainingOver (s : State) (b : Nat) : State :=
  let x := s.bport b
  if s.portsOn b && (x.state == 3 || x.state == 6) && decide (x.since + 60000000 ≤ s.ts) then s.portTo b 2 else s

def execTrainingTimeout (b : BriarId) (s : State) : Host.Outcome State Fault Refusal := s.inner (s.trainingOver b.val)

/-- The IDENT that this module sends. -/
def State.identPkt (s : State) (b : Nat) : BriarPkt :=
  { ty := 7, west := decide (2 ≤ b), high := s.crosses (decide (2 ≤ b)) (b % 2 + 1), dst := (s.expectedEnd b).1, src := s.briar.pos
    extra := [s.briar.ringId, s.briar.n, s.briar.pos, b] }

/-- The lanes that a port trains on (12 R396): all 16, the half of them without a failed lane, or none where both halves have one. Bit i of `trained` is lane i's. -/
def lanesInUse (trained : Nat) : Nat :=
  if bits trained 0 16 = 0xFFFF then 16 else if bits trained 0 8 = 0xFF ∨ bits trained 8 8 = 0xFF then 8 else 0

/-- Are the buffer sets of a port free of what came before it last left UP? Until then it does not exchange IDENT packets, so that no set holds more than its 512 slots. DESIGN CHOICE: log 117. -/
def State.setsFree (s : State) (b : Nat) : Bool :=
  (s.bport b).inbox.isEmpty && (List.range 4).all fun c => (s.bport c).transit.all fun p => p.via.all fun v => v.1 != b

/-- A port that has become UP starts its sequence numbers, credits and queues anew. -/
def BriarPort.fresh (x : BriarPort) (lanes ts : Nat) : BriarPort :=
  { state := x.state, lanes := lanes, since := x.since, cable := x.cable, ackTime := ts, cnt := x.cnt, turn := x.turn }

/-- The frame of an IDENT leaves: it stands before the sequence, whose first frame is SEQ 0 (log 116). -/
def State.sendIdent (s : State) (b : Nat) : State :=
  (s.modBport b fun x => x.count 1 1).emit (.briar b ({ seq := 0, ack := 4095, nak := false, slots := (s.identPkt b).slotsOf 0 } : BFrame).bytes)

/-- UP is left for RETRAINING. -/
def State.retrain (s : State) (b : Nat) : State := (s.portTo b 6).modBport b fun x => x.count 6 1

/-! ## Frames that leave (12 R397, R398, R402, R405) -/

/-- May a packet be sent: are there credits for all its slots? -/
def BriarPort.credited (x : BriarPort) (p : BriarPkt) : Bool := decide (p.slots ≤ x.credits.getD p.set 0)

/-- The first packet of a list for which there are credits, none of its buffer set that has to wait standing before it. -/
def BriarPort.sendable (x : BriarPort) (waits : List Nat) : List BriarPkt → Option BriarPkt
  | [] => none
  | p :: r =>
    if waits.contains p.set then x.sendable waits r
    else if x.credited p then some p else x.sendable (p.set :: waits) r

/-- A packet to a module waits at port `b` while another port has frames to it unacknowledged, or older packets to it waiting: after a change of route no packet
overtakes (09 R313). -/
def State.routeHeld (s : State) (b : Nat) (p : BriarPkt) : Bool :=
  decide (p.ty ≤ 5) && (List.range 4).any fun c => c != b &&
    (((s.bport c).tx ++ (s.bport c).replay.flatMap (·.slots)).any (fun x => x.flow.any fun y => y.2.2 == p.dst && y.2.1 == p.src && decide (y.1 ≤ 5)) ||
     ((s.bport c).queue ++ (s.bport c).transit).any fun y => y.dst == p.dst && y.src == p.src && decide (y.ty ≤ 5) && decide (y.ord < p.ord))

/-- Does the link regulator of its partition let a request of this module's own pass port `b` (12 R413)? -/
def State.linkPaid (s : State) (b : Nat) (p : BriarPkt) : Bool := match p.reg with | some q => s.paid q (20 + b) | none => true

/-- What may leave port `b`: transit packets, and the module's own whose partition has tokens, or borrows where nobody with tokens waits (07 R239). -/
def State.leaving (s : State) (b : Nat) (x : BriarPort) : List BriarPkt × List BriarPkt :=
  let transit := x.transit.filter fun p => !s.routeHeld b p
  let own := x.queue.filter fun p => !s.routeHeld b p
  let paid := own.filter (s.linkPaid b)
  if transit.isEmpty && paid.isEmpty then ([], own.filter fun p => (match p.reg with | some q => s.borrows q | none => true)) else (transit, paid)

/-- What asks the arbiter of outbound port `b`: requesters 0 to 2 are the other ports in order, and 3 is this module's own injection, each with its first packet that may
be sent (12 R405; log 99). -/
def State.portAsks (s : State) (b : Nat) : List (ArbIn × BriarPkt) :=
  let x := s.bport b
  let l := s.leaving b x
  let own := (x.sendable [] l.2).map fun p => (({ req := ownInput, cls := 0 } : ArbIn), p)
  let transit := ((List.range 4).filter (· != b)).zipIdx.map fun c =>
    (x.sendable [] (l.1.filter fun p => (p.via.map (·.1)) == some c.1)).map fun p => (({ req := c.2, cls := 1 } : ArbIn), p)
  transit.filterMap id ++ own.toList

/-- The packet that the arbiter of port `b` grants next. -/
def State.portPick (s : State) (b : Nat) : Option (Bool × BriarPkt) × State :=
  let asks := s.portAsks b
  if asks.isEmpty then (none, s)
  else
    let r := s.arbDecide (2061 + b) (asks.map (·.1))
    ((r.1.bind fun w => asks.find? (·.1 == w)).map fun g => (g.1.req != ownInput, g.2), r.2)

/-- The credits of a buffer set that a packet's slots take. -/
def BriarPort.spend (x : BriarPort) (set n : Nat) : BriarPort := { x with credits := x.credits.zipIdx.map fun e => if e.2 = set then e.1 - n else e.1 }

/-- Packets are begun while a frame's 16 slots are not filled. -/
def State.fillFrame (s : State) (b : Nat) : Nat → State
  | 0 => s
  | fuel + 1 =>
    if 16 ≤ (s.bport b).tx.length then s
    else
      let g := s.portPick b
      let s := g.2
      match g.1 with
      | none => s
      | some (transit, p) =>
        let s := s.modBport b fun x =>
          let y : BriarPort := { x with
            transit := if transit then x.transit.erase p else x.transit
            queue := if transit then x.queue else x.queue.erase p
            tx := x.tx ++ p.slotsOf p.data.length }
          y.spend p.set p.slots
        let s := s.freeVia p
        let s := (match p.reg with | some q => s.charge q (20 + b) (64 * p.slots) | none => s)
        s.fillFrame b fuel

/-- The buffer set whose freed slots a frame returns. -/
def BriarPort.returned (x : BriarPort) : Nat × Nat :=
  match x.freed.zipIdx.find? (·.1 != 0) with
  | some e => (e.2, e.1)
  | none => (0, 0)

/-- The SEQ of the last frame received in order and intact. -/
def BriarPort.lastIn (x : BriarPort) : Nat := (x.expect + 4095) % 4096

/-- A frame leaves a port that is UP and has a place in its replay buffer of 256. With nothing to send all its slots are empty. -/
def State.sendFrame (s : State) (b : Nat) : State :=
  if (s.bport b).state != 5 || decide (256 ≤ (s.bport b).replay.length) then s
  else
    let s := s.fillFrame b 16
    let x := s.bport b
    let c := x.returned
    let f : BFrame := { seq := x.nextSeq, ack := x.lastIn, nak := x.nakSent, crSet := c.1, crSlots := c.2, slots := x.tx.take 16 }
    let y : BriarPort := { x with
      freed := x.freed.zipIdx.map fun (e : Nat × Nat) => if e.2 = c.1 then 0 else e.1
      nextSeq := (x.nextSeq + 1) % 4096, replay := x.replay ++ [f], tx := x.tx.drop 16
      ackTime := if x.replay.isEmpty then s.ts else x.ackTime }
    (s.setBport b (y.count 1 1)).emit (.briar b f.bytes)

/-- IDENT: PMD training is over with 16 or 8 lanes, and the two ends have exchanged their IDENT packets, within 60 ms. Frames leave from then on. -/
def State.identCheck (s : State) (b trained ringId n pos port : Nat) : State :=
  let x := s.bport b
  let lanes := lanesInUse trained
  if s.portsOn b && (x.state == 3 || x.state == 6) && lanes != 0 && decide (s.ts ≤ x.since + 60000000) && s.setsFree b then
    let s := s.sendIdent b
    if ringId = s.briar.ringId ∧ n = s.briar.n ∧ (pos, port) = s.expectedEnd b then
      (s.portTo b 5 fun x => x.fresh lanes s.ts).sendFrame b
    else
      (s.portTo b 4).post { code := 0x61, source := 0x8C + b, args := [b, ringId + 2 ^ 16 * n + 2 ^ 24 * pos + 2 ^ 32 * port] }
  else s

def execIdent (b : BriarId) (trained ringId n pos port : Nat) (s : State) : Host.Outcome State Fault Refusal :=
  s.inner (s.identCheck b.val trained ringId n pos port)

/-! ## Replays (12 R398, 15 R478) -/

/-- The frame and slot of the header of the packet that a slot belongs to, and the slot's place among its data slots; slots are numbered through the replay buffer. -/
def headOf (l : List BSlot) (k : Nat) : Option (Nat × Nat) :=
  (((List.range (k + 1)).reverse).find? fun i => (l.getD i {}).code == 1).map fun i => (i, ((List.range k).filter fun m => decide (i < m) && (l.getD m {}).code == 2).length)

/-- The POISON bits of a header slot with more set. -/
def poisonHead (h : List Byte) (m : Nat) : List Byte := h.take 0x14 ++ leBytes 4 (fieldAt h 0x14 4 ||| m) ++ h.drop 0x18

/-- The slots of the replay buffer, 16 to a frame. -/
def BriarPort.kept (x : BriarPort) : List BSlot := x.replay.flatMap fun f => (List.range 16).map fun i => f.slots.getD i {}

/-- Slot `k` of the replay buffer is uncorrectable: the POISON bit that its packet's header has for it is set; of a header, those of all its data slots; and where that header
has been acknowledged, the slot is sent with code 3. DESIGN CHOICE: R478 says only that the slot is sent with its POISON bit set (log 118). -/
def BriarPort.poisonSlot (x : BriarPort) (k : Nat) : BriarPort :=
  let l := x.kept
  let set (j : Nat) (f : BSlot → BSlot) : BriarPort :=
    { x with replay := x.replay.zipIdx.map fun e => if e.2 = j / 16 then { e.1 with slots := ((List.range 16).map fun i => e.1.slots.getD i {}).modify (j % 16) f } else e.1 }
  match (l.getD k {}).code with
  | 1 => set k fun h => { h with bytes := poisonHead h.bytes (2 ^ grainsAfter h.bytes - 1) }
  | 2 => (match headOf l k with
    | some h => set h.1 fun c => { c with bytes := poisonHead c.bytes (2 ^ h.2) }
    | none => set k fun d => { d with code := 3 })
  | _ => x

/-- Errors of the replay buffer: a corrected word is delivered; a slot with an uncorrectable one is sent as poison. -/
def State.replayErrs (s : State) (b : Nat) (errs : List (Nat × Nat × Bool)) : State :=
  (errs.filter fun e => decide (e.1 < (s.bport b).replay.length) && decide (e.2.1 < 16)).foldl (fun (s : State) e =>
    if e.2.2 then (s.modBport b fun x => x.poisonSlot (16 * e.1 + e.2.1)).sramUncorr (0x8C + b) 9 (1024 * e.1 + 64 * e.2.1) else s.sramCorr 1) s

/-- Every frame after the acknowledged one is sent again, as the replay buffer keeps it but for ACK and NAK, which are those of now (log 116). -/
def State.replayFrames (s : State) (b : Nat) (errs : List (Nat × Nat × Bool)) : State :=
  let s := s.replayErrs b errs
  let x := s.bport b
  let s := x.replay.foldl (fun (s : State) f => s.emit (.briar b ({ f with ack := x.lastIn, nak := x.nakSent } : BFrame).bytes)) s
  s.modBport b fun x => { (x.count 1 x.replay.length).count 5 1 with stuck := x.stuck + 1 }

/-! ## BRIAR_FRAME_RECEIVE, ACK_TIMEOUT -/

/-- ACK of an accepted frame: the frames up to it leave the replay buffer. -/
def BriarPort.acked (x : BriarPort) (ack ts : Nat) : BriarPort :=
  let d := (ack + 4096 - x.lastAck) % 4096
  if d = 0 ∨ x.replay.length < d then x
  else { x with lastAck := ack, replay := x.replay.drop d, stuck := 0, ackTime := ts }

/-- A packet reaches this module: it waits at the port, and step-quiet falls (04 R143). -/
def State.deliverPkt (s : State) (b : Nat) (p : BriarPkt) : State :=
  (s.modBport b fun x => { x with inbox := x.inbox ++ [p] }).leaveQuiet

/-- A packet is delivered here, forwarded, or discarded as misrouted (12 R404, R407). -/
def State.takePkt (s : State) (b : Nat) (p : BriarPkt) : State :=
  let p := { p with via := some (b, p.set, (s.bport b).turn) }
  if p.ty = 0 ∨ 7 < p.ty then (s.ringCount 5 1).freeVia p
  else if p.ty = 7 then s.freeVia p
  else if p.ty = 6 ∨ p.dst = s.briar.pos then s.deliverPkt b p
  else
    match s.briarPut p true with
    | some s => s
    | none => (s.ringCount 5 1).freeVia p

/-- How many slots of a packet that is arriving have come. -/
def BRx.got (r : BRx) : Nat := 1 + r.pkt.data.length

/-- A slot of an accepted frame: a header begins a packet, data continue it, and the last of its slots completes it. Of a packet that the sender has abandoned every slot is
discarded and is free again (12 R400). DESIGN CHOICE: a header before the last slot of the packet before it drops that packet; data slots of no packet are dropped (log 116). -/
def State.takeSlot (s : State) (b : Nat) (c : BSlot) : State :=
  let x := s.bport b
  match c.code, x.cur with
  | 1, old =>
    let s := (match old with
      | some r => s.modBport b fun x => (x.free r.pkt.set (if r.cut then 0 else r.got))
      | none => s)
    let p := pktOf c.bytes
    if grainsAfter c.bytes = 0 then (s.modBport b fun x => { x with cur := none }).takePkt b p
    else s.modBport b fun x => { x with cur := some ⟨p, grainsAfter c.bytes, false⟩ }
  | 2, some r =>
    let p := { r.pkt with data := r.pkt.data ++ [c.bytes] }
    let n := r.need - 1
    if r.cut then s.modBport b fun x => { x.free r.pkt.set 1 with cur := if n = 0 then none else some { r with need := n } }
    else if n = 0 then (s.modBport b fun x => { x with cur := none }).takePkt b p
    else s.modBport b fun x => { x with cur := some { r with pkt := p, need := n } }
  | 3, some r =>
    let n := r.need - 1
    s.modBport b fun x => { x.free r.pkt.set (1 + if r.cut then 0 else r.got) with cur := if n = 0 then none else some { r with need := n, cut := true } }
  | _, _ => s

/-- The packets that a frame next in order carries slots of: the one that is arriving, and those that begin in it. -/
def touched (x : BriarPort) (f : BFrame) : List BRx :=
  (x.cur.filter fun r => !r.cut && (f.slots.headD {}).code != 1).toList ++
    (f.slots.filter fun c => c.code == 1).map fun c => ⟨pktOf c.bytes, grainsAfter c.bytes, false⟩

/-- Forwarding of a packet has begun at a port that was idle and has the credits: when the frame fails, its header and the data slots of accepted frames have left, the others leave
with code 3, and it is counted (12 R400). DESIGN CHOICE: how much of it has left by then (log 119). -/
def State.abandonOne (s : State) (r : BRx) : State :=
  let p := r.pkt
  if 1 ≤ p.ty ∧ p.ty ≤ 5 ∧ p.dst ≠ s.briar.pos ∧ r.need ≠ 0 then
    match s.nextHop p.west p.dst with
    | none => s
    | some d =>
      let o := hopPort p.west d
      let x := s.bport o
      let q := { p with high := p.high || s.crosses p.west d }
      let n := p.data.length + r.need
      if x.state = 5 ∧ x.tx = [] ∧ x.queue = [] ∧ x.transit = [] ∧ n + 1 ≤ x.credits.getD q.set 0 then
        s.modBport o fun x => (({ x with tx := q.slotsOf n ++ List.replicate r.need ⟨3, [], some q.flow⟩ } : BriarPort).spend q.set (n + 1)).count 7 1
      else s
  else s

/-- A frame that fails: the packets whose forwarding it had begun are abandoned. They arrive again with the replay. -/
def State.abandon (s : State) (b : Nat) (f : BFrame) : State := (touched (s.bport b) f).foldl State.abandonOne s

/-- A frame is accepted: its acknowledgement, credits and slots; a NAK is answered by a replay, the sixteenth without progress by retraining (R399). -/
def State.acceptFrame (s : State) (b : Nat) (f : BFrame) (errs : List (Nat × Nat × Bool)) : State :=
  let s := s.modBport b fun x =>
    let y := (x.count 2 1).acked f.ack s.ts
    { y with
      expect := (x.expect + 1) % 4096, nakSent := false
      credits := y.credits.zipIdx.map fun e => if e.2 = f.crSet then e.1 + f.crSlots else e.1 }
  let s := f.slots.foldl (fun (s : State) c => s.takeSlot b c) s
  if f.nak && !(s.bport b).replay.isEmpty then
    let s := s.replayFrames b errs
    if 16 ≤ (s.bport b).stuck then s.retrain b else s
  else s

/-- BRIAR_FRAME_RECEIVE: the frame is accepted, or discarded and answered with a NAK. A frame of this module's own leaves in the same time, with empty slots where it has nothing to
send (R397). -/
def State.frameIn (s : State) (b : Nat) (f : FrameIn) : State :=
  if !s.portsOn b || (s.bport b).state != 5 then s
  else
    let s := s.modBport b fun x => x.count 3 f.corrected
    let g := linkFrame f.bytes
    let next := decide (g.seq = (s.bport b).expect)
    let s :=
      if !(frameSound f.bytes && f.fec) then ((if next then s.abandon b g else s).modBport b fun x => { x.count 4 1 with nakSent := true })
      else if next then s.acceptFrame b g f.bufErrs
      else s.modBport b fun x => { x with nakSent := true }
    s.sendFrame b

def execBriarFrameReceive (b : BriarId) (f : FrameIn) (s : State) : Host.Outcome State Fault Refusal := s.inner (s.frameIn b.val f)

/-- ACK_TIMEOUT: 1 ms without progress while frames are unacknowledged. -/
def State.ackOver (s : State) (b : Nat) : State :=
  let x := s.bport b
  if s.portsOn b && x.state == 5 && !x.replay.isEmpty && decide (x.ackTime + 1000000 ≤ s.ts) then s.retrain b else s

def execAckTimeout (b : BriarId) (s : State) : Host.Outcome State Fault Refusal := s.inner (s.ackOver b.val)

/-! ## Requests of other modules: READ, WRITE, COMBINE (12 R408) -/

/-- Requests and responses wait apart, each in order (12 R402). -/
def BriarPkt.isRequest (p : BriarPkt) : Bool := decide (1 ≤ p.ty) && decide (p.ty ≤ 3)

/-- The oldest request or response at a port is taken, where it is of a type; its slots are free again. -/
def State.takeInbox (s : State) (b ty : Nat) : Option (BriarPkt × State) :=
  let x := s.bport b
  let want := decide (1 ≤ ty) && decide (ty ≤ 3)
  ((x.inbox.find? fun p => p.isRequest == want).filter fun p => p.ty == ty && s.isReady).map fun p =>
    (p, (s.setBport b { x with inbox := x.inbox.erase p }).freeVia p)

/-- How a request is refused at once: ACCESS_DENIED in the control range, UNMAPPED at an unmapped address (07 R207). -/
def refusedAt (addr len : Nat) : Nat :=
  let cuts := spanCuts addr len
  if cuts.any fun c => (match placeOf (addr + c.1) with | .control _ => true | _ => false) then 2
  else if cuts.any fun c => (match placeOf (addr + c.1) with | .unmapped => true | _ => false) then 1
  else 0

/-- An arriving request becomes accesses at the homes of its grains, as an agent of the sending module; it carries no partition. -/
def State.serveReq (s : State) (b : Nat) (p : BriarPkt) (kind : TxKind) : State :=
  let rd := kind == .read
  let cuts := spanCuts p.addr (min p.len 2048)
  let id := s.briar.nextReq
  let r : InReq := { id := id, src := p.src, tag := p.tag, rd := rd, part := p.part, addr := p.addr, len := p.len, left := cuts.length }
  let st := refusedAt p.addr (min p.len 2048)
  let s := { s with briar := { s.briar with nextReq := id + 1 } }
  if st != 0 then
    let s := if st = 1 then s.modCount 0x7209 1 1 else s
    s.briarAnswer { r with status := st, poison := if rd then 2 ^ 32 - 1 else 0 }
  else if cuts.isEmpty then s.briarAnswer r
  else
    let s := { s with briar := { s.briar with served := s.briar.served ++ [r] } }
    cuts.zipIdx.foldl (fun (s : State) c =>
      let a := p.addr + c.1.1
      let d := ((p.data.getD c.2 []).drop (a % 64)).take c.1.2
      s.ask { id := 0, agent := .remote p.src, kind := kind, dest := ⟨none, a⟩, len := c.1.2
              data := if rd then {} else ⟨padTo c.1.2 d, p.poison.testBit c.2⟩
              rel := if p.release then some 4 else none, acq := if rd then some 4 else none, rtally := p.rtally
              via := b, purpose := .briar id c.2 }) s

def execBriarRead (b : BriarId) (s : State) : Host.Outcome State Fault Refusal :=
  s.inner (match s.takeInbox b.val 1 with | some (p, s) => s.serveReq b.val p .read | none => s)

def execBriarWrite (b : BriarId) (s : State) : Host.Outcome State Fault Refusal :=
  s.inner (match s.takeInbox b.val 2 with | some (p, s) => s.serveReq b.val p .write | none => s)

/-- COMBINE; one whose OP is Reserved is discarded as misrouted. -/
def execBriarCombine (b : BriarId) (s : State) : Host.Outcome State Fault Refusal :=
  s.inner (match s.takeInbox b.val 3 with
    | some (p, s) => (match combOf p.op with | some c => s.serveReq b.val p (.combine c) | none => s.ringCount 5 1)
    | none => s)

/-! ## Responses: READ_RESP, ACK, REMOTE_TIMEOUT (12 R410, R411) -/

/-- The request that a response answers is closed; a late one is discarded and counted. -/
def State.closeReq (s : State) (tag : Nat) (g : State → Txn → State) : State :=
  match s.briar.reqs.find? (·.tag == tag) with
  | none => s.ringCount 3 1
  | some r =>
    let s := { s with briar := { s.briar with reqs := s.briar.reqs.filter (·.tag != tag) } }
    match s.txn? r.txn with
    | some q => g s q
    | none => s

/-- The tag that a READ_RESP brings. -/
def relOf (r : Nat × Nat × Nat) : RelTag := ⟨r.1, r.2.1, .core (Fin.ofNat 128 r.2.2)⟩

/-- A READ_RESP: data, or a poisoned grain. -/
def State.readResp (s : State) (p : BriarPkt) : State :=
  s.closeReq p.tag fun s q =>
    if p.status != 0 then s.remoteFail q p.status
    else
      let tag := p.relTag.map relOf
      let d := padTo q.len ((p.data.getD 0 []).drop (q.dest.addr % 64))
      (s.checkTag q tag).respond q.id ⟨d, p.poison.testBit 0⟩ 0 false (if q.acq.isSome then tag else none)

def execBriarReadResp (b : BriarId) (s : State) : Host.Outcome State Fault Refusal :=
  s.inner (match s.takeInbox b.val 4 with | some (p, s) => s.readResp p | none => s)

def execBriarAck (b : BriarId) (s : State) : Host.Outcome State Fault Refusal :=
  s.inner (match s.takeInbox b.val 5 with
    | some (p, s) => s.closeReq p.tag fun s q => s.respond q.id {} p.status false none
    | none => s)

/-- REMOTE_TIMEOUT: no response within OD 0x4800.06. -/
def State.remoteOver (s : State) (tag : Nat) : State :=
  match s.briar.reqs.find? (·.tag == tag) with
  | none => s
  | some r =>
    if s.isReady && decide (r.sent + 1000 * s.odv 0x4800 6 ≤ s.ts) then
      (s.closeReq tag fun s q => s.remoteFail q 4).ringCount 1 1
    else s

def execRemoteTimeout (tag : Nat) (s : State) : Host.Outcome State Fault Refusal := s.inner (s.remoteOver tag)

/-! ## LSA_SEND, LSA, LINK_MAP_EXPIRE (12 R406) -/

def execLsaSend (s : State) : Host.Outcome State Fault Refusal := s.inner s.lsaSend

/-- An LSA newer than the one held for its position is kept and forwarded on the other UP ports; a change recomputes the routes. -/
def State.lsaTake (s : State) (b : Nat) (p : BriarPkt) : State :=
  let n := p.extra.getD 0 0 % 65536
  let st := (p.extra.drop 1).take 4
  let old := SMap.get none s.briar.map p.src
  let newer := (match old with | some e => seqLater 16 n e.seq | none => true)
  if p.src = s.briar.pos ∨ newer = false then s
  else
    let s := { s with briar := { s.briar with map := SMap.set none s.briar.map p.src (some ⟨n, st, s.ts⟩) } }
    let s := if old.map (·.states) != some st then s.ringCount 4 1 else s
    ((List.range 4).filter (· != b)).foldl (fun (s : State) c => s.lsaOn p c) s

def execLsa (b : BriarId) (s : State) : Host.Outcome State Fault Refusal :=
  s.inner (match s.takeInbox b.val 6 with | some (p, s) => s.lsaTake b.val p | none => s)

/-- LINK_MAP_EXPIRE: an entry not refreshed for 5 ms counts as every port down; its sequence stays, so that no older LSA is taken for it. -/
def State.mapExpire (s : State) (pos : Nat) : State :=
  match SMap.get none s.briar.map pos with
  | some e =>
    if s.isReady && !e.states.isEmpty && decide (e.time + 5000000 ≤ s.ts) then
      ({ s with briar := { s.briar with map := SMap.set none s.briar.map pos (some { e with states := [] }) } }).ringCount 4 1
    else s
  | none => s

def execLinkMapExpire (pos : Fin 64) (s : State) : Host.Outcome State Fault Refusal := s.inner (s.mapExpire pos.val)

end Sys2Proof.Machine
end

