-- ==== Sys2Proof/Machine/Rv.lean ====
section
/-!
DEFINITION. The instructions of the control core, RV32IMAC with Zicsr (03 R99, R101): decoding of 32-bit and compressed words, and what the
instructions that touch only registers compute.
-/

namespace Sys2Proof.Machine

/-- A decoded instruction; immediates are signed. -/
inductive Rv where
  | lui (rd : Nat) (imm : Int)
  | auipc (rd : Nat) (imm : Int)
  | jal (rd : Nat) (imm : Int)
  | jalr (rd rs1 : Nat) (imm : Int)
  | branch (f3 rs1 rs2 : Nat) (imm : Int)
  | load (f3 rd rs1 : Nat) (imm : Int)
  | store (f3 rs1 rs2 : Nat) (imm : Int)
  /-- Register and immediate; `f3` of OP-IMM, shifts with SRAI marked. -/
  | opImm (f3 rd rs1 : Nat) (imm : Int) (arith : Bool)
  /-- Register and register: `alt` for SUB and SRA. -/
  | op (f3 rd rs1 rs2 : Nat) (alt : Bool)
  /-- The M extension. -/
  | mul (f3 rd rs1 rs2 : Nat)
  | lr (rd rs1 : Nat) (aq rl : Bool)
  | sc (rd rs1 rs2 : Nat) (aq rl : Bool)
  | amo (f5 rd rs1 rs2 : Nat) (aq rl : Bool)
  | fence (pred succ : Nat)
  | fenceTso
  | fenceI
  | ecall
  | ebreak
  | mret
  | wfi
  /-- A CSR instruction: `imm` for the immediate forms, whose field `rs1` is the value. -/
  | csr (f3 rd rs1 num : Nat) (imm : Bool)
  | illegal
  /-- The fetch itself failed (03 R100). -/
  | noFetch
  deriving DecidableEq, Repr

/-- Immediate of the I format. -/
def immI (w : Nat) : Int := sext 12 (bits w 20 12)
def immS (w : Nat) : Int := sext 12 (bits w 7 5 + 32 * bits w 25 7)
def immB (w : Nat) : Int := sext 13 (2 * bits w 8 4 + 32 * bits w 25 6 + 2048 * bits w 7 1 + 4096 * bits w 31 1)
def immU (w : Nat) : Int := sext 32 (4096 * bits w 12 20)
def immJ (w : Nat) : Int := sext 21 (2 * bits w 21 10 + 2048 * bits w 20 1 + 4096 * bits w 12 8 + 1048576 * bits w 31 1)

/-- SYSTEM instructions. -/
def decodeSystem (w : Nat) : Rv :=
  let f3 := bits w 12 3
  if f3 = 0 then
    (match w with
     | 0x00000073 => .ecall
     | 0x00100073 => .ebreak
     | 0x30200073 => .mret
     | 0x10500073 => .wfi
     | _ => .illegal)
  else if f3 = 4 then .illegal
  else .csr (f3 % 4) (bits w 7 5) (bits w 15 5) (bits w 20 12) (decide (4 < f3))

/-- Atomics, of words only. -/
def decodeAmo (w : Nat) : Rv :=
  let rd := bits w 7 5
  let rs1 := bits w 15 5
  let rs2 := bits w 20 5
  let f5 := bits w 27 5
  let aq := w.testBit 26
  let rl := w.testBit 25
  if bits w 12 3 != 2 then .illegal
  else if f5 = 2 then (if rs2 = 0 then .lr rd rs1 aq rl else .illegal)
  else if f5 = 3 then .sc rd rs1 rs2 aq rl
  else if [0, 1, 4, 8, 12, 16, 20, 24, 28].contains f5 then .amo f5 rd rs1 rs2 aq rl
  else .illegal

/-- A 32-bit instruction word. -/
def decode32 (w : Nat) : Rv :=
  let rd := bits w 7 5
  let f3 := bits w 12 3
  let rs1 := bits w 15 5
  let rs2 := bits w 20 5
  let f7 := bits w 25 7
  match bits w 0 7 with
  | 0x37 => .lui rd (immU w)
  | 0x17 => .auipc rd (immU w)
  | 0x6F => .jal rd (immJ w)
  | 0x67 => if f3 = 0 then .jalr rd rs1 (immI w) else .illegal
  | 0x63 => if f3 = 2 ∨ f3 = 3 then .illegal else .branch f3 rs1 rs2 (immB w)
  | 0x03 => if f3 = 3 ∨ 5 < f3 then .illegal else .load f3 rd rs1 (immI w)
  | 0x23 => if 2 < f3 then .illegal else .store f3 rs1 rs2 (immS w)
  | 0x13 =>
    if f3 = 1 then (if f7 = 0 then .opImm 1 rd rs1 (rs2 : Int) false else .illegal)
    else if f3 = 5 then (if f7 = 0 then .opImm 5 rd rs1 (rs2 : Int) false else if f7 = 0x20 then .opImm 5 rd rs1 (rs2 : Int) true else .illegal)
    else .opImm f3 rd rs1 (immI w) false
  | 0x33 =>
    if f7 = 1 then .mul f3 rd rs1 rs2
    else if f7 = 0 then .op f3 rd rs1 rs2 false
    else if f7 = 0x20 ∧ (f3 = 0 ∨ f3 = 5) then .op f3 rd rs1 rs2 true
    else .illegal
  | 0x2F => decodeAmo w
  | 0x0F =>
    if f3 = 1 then .fenceI
    else if f3 = 0 then (if bits w 28 4 = 8 ∧ bits w 20 8 = 0x33 then .fenceTso else .fence (bits w 24 4) (bits w 20 4))
    else .illegal
  | 0x73 => decodeSystem w
  | _ => .illegal

/-- A compressed instruction (the C extension for RV32, without the floating-point forms). -/
def decode16 (h : Nat) : Rv :=
  let rdq := 8 + bits h 2 3
  let rsq := 8 + bits h 7 3
  let rd := bits h 7 5
  let rs2 := bits h 2 5
  let imm6 : Int := sext 6 (bits h 2 5 + 32 * bits h 12 1)
  let sh : Int := ((bits h 2 5 + 32 * bits h 12 1 : Nat) : Int)
  let immJ16 : Int := sext 12 (2 * bits h 3 3 + 16 * bits h 11 1 + 32 * bits h 2 1 + 64 * bits h 7 1 + 128 * bits h 6 1
    + 256 * bits h 9 2 + 1024 * bits h 8 1 + 2048 * bits h 12 1)
  let immB16 : Int := sext 9 (2 * bits h 3 2 + 8 * bits h 10 2 + 32 * bits h 2 1 + 64 * bits h 5 2 + 256 * bits h 12 1)
  let lwImm : Int := ((4 * bits h 6 1 + 8 * bits h 10 3 + 64 * bits h 5 1 : Nat) : Int)
  match bits h 0 2, bits h 13 3 with
  | 0, 0 =>
    let n := 4 * bits h 6 1 + 8 * bits h 5 1 + 16 * bits h 11 2 + 64 * bits h 7 4
    if n = 0 then .illegal else .opImm 0 rdq 2 (n : Int) false
  | 0, 2 => .load 2 rdq rsq lwImm
  | 0, 6 => .store 2 rsq rdq lwImm
  | 1, 0 => .opImm 0 rd rd imm6 false
  | 1, 1 => .jal 1 immJ16
  | 1, 2 => .opImm 0 rd 0 imm6 false
  | 1, 3 =>
    if imm6 = 0 then .illegal
    else if rd = 2 then
      .opImm 0 2 2 (sext 10 (16 * bits h 6 1 + 32 * bits h 2 1 + 64 * bits h 5 1 + 128 * bits h 3 2 + 512 * bits h 12 1)) false
    else .lui rd (imm6 * 4096)
  | 1, 4 =>
    (match bits h 10 2 with
     | 0 => if h.testBit 12 then .illegal else .opImm 5 rsq rsq sh false
     | 1 => if h.testBit 12 then .illegal else .opImm 5 rsq rsq sh true
     | 2 => .opImm 7 rsq rsq imm6 false
     | _ =>
       if h.testBit 12 then .illegal
       else match bits h 5 2 with
         | 0 => .op 0 rsq rsq rdq true
         | 1 => .op 4 rsq rsq rdq false
         | 2 => .op 6 rsq rsq rdq false
         | _ => .op 7 rsq rsq rdq false)
  | 1, 5 => .jal 0 immJ16
  | 1, 6 => .branch 0 rsq 0 immB16
  | 1, 7 => .branch 1 rsq 0 immB16
  | 2, 0 => if h.testBit 12 then .illegal else .opImm 1 rd rd sh false
  | 2, 2 => if rd = 0 then .illegal else .load 2 rd 2 ((4 * bits h 4 3 + 32 * bits h 12 1 + 64 * bits h 2 2 : Nat) : Int)
  | 2, 4 =>
    if h.testBit 12 then
      (if rs2 = 0 then (if rd = 0 then .ebreak else .jalr 1 rd 0) else .op 0 rd rd rs2 false)
    else if rs2 = 0 then (if rd = 0 then .illegal else .jalr 0 rd 0)
    else .op 0 rd 0 rs2 false
  | 2, 6 => .store 2 2 rs2 ((4 * bits h 9 4 + 64 * bits h 7 2 : Nat) : Int)
  | _, _ => .illegal

/-- The integer operation of OP and OP-IMM on 32-bit values. -/
def aluOp (f3 : Nat) (alt : Bool) (a b : Nat) : Nat :=
  match f3 with
  | 0 => if alt then (a + 2 ^ 32 - b % 2 ^ 32) % 2 ^ 32 else (a + b) % 2 ^ 32
  | 1 => (a * 2 ^ (b % 32)) % 2 ^ 32
  | 2 => b2n (decide (sext 32 a < sext 32 b))
  | 3 => b2n (decide (a < b))
  | 4 => a ^^^ b
  | 5 => if alt then toBits 32 ((sext 32 a).fdiv ((2 ^ (b % 32) : Nat) : Int)) else a / 2 ^ (b % 32)
  | 6 => a ||| b
  | _ => a &&& b

/-- The M extension. -/
def mulOp (f3 : Nat) (a b : Nat) : Nat :=
  let x := sext 32 a
  let y := sext 32 b
  match f3 with
  | 0 => (a * b) % 2 ^ 32
  | 1 => toBits 32 ((x * y).fdiv (2 ^ 32))
  | 2 => toBits 32 ((x * (b : Int)).fdiv (2 ^ 32))
  | 3 => (a * b) / 2 ^ 32
  | 4 => if b = 0 then 2 ^ 32 - 1 else toBits 32 (x.tdiv y)
  | 5 => if b = 0 then 2 ^ 32 - 1 else a / b
  | 6 => if b = 0 then a else toBits 32 (x.tmod y)
  | _ => if b = 0 then a else a % b

/-- Is a branch taken? -/
def branchTaken (f3 a b : Nat) : Bool :=
  match f3 with
  | 0 => a == b
  | 1 => a != b
  | 4 => decide (sext 32 a < sext 32 b)
  | 5 => !decide (sext 32 a < sext 32 b)
  | 6 => decide (a < b)
  | _ => !decide (a < b)

/-- The new value of an AMO (09 R306). -/
def amoOp (f5 old v : Nat) : Nat :=
  match f5 with
  | 0 => (old + v) % 2 ^ 32
  | 1 => v
  | 4 => old ^^^ v
  | 8 => old ||| v
  | 12 => old &&& v
  | 16 => if sext 32 v < sext 32 old then v else old
  | 20 => if sext 32 old < sext 32 v then v else old
  | 24 => min old v
  | _ => max old v

/-- A loaded value extended by its `f3`. -/
def loadExt (f3 v : Nat) : Nat :=
  match f3 with
  | 0 => toBits 32 (sext 8 v)
  | 1 => toBits 32 (sext 16 v)
  | _ => v

/-- Bytes of a load or store. -/
def accBytes (f3 : Nat) : Nat := 2 ^ (f3 % 4)

end Sys2Proof.Machine
end

