-- ==== Sys2Proof/Machine/CoreCpu.lean ====
section
/-!
DEFINITION. Meanings of the control core's rows (03 R97, R99 to R103; 04 R112, R136; 06 R521; 09 R302 to R308; 15 R475). Each row acts when the
instruction at the core's pc is one of its own; a stall leaves the state as it is. An access that the core waits for is performed at its home in the step that
retires it (log 22).
-/

namespace Sys2Proof.Machine

/-! ## Registers -/

def CoreSt.reg (c : CoreSt) (r : Nat) : Nat := if r = 0 then 0 else SMap.get 0 c.regs r

def CoreSt.setReg (c : CoreSt) (r v : Nat) : CoreSt := if r = 0 then c else { c with regs := SMap.set 0 c.regs r (v % 2 ^ 32) }

/-- Base plus immediate. -/
def CoreSt.addr (c : CoreSt) (rs1 : Nat) (imm : Int) : Nat := toBits 32 ((c.reg rs1 : Int) + imm)

def State.core (s : State) (t : Nat) : CoreSt := (s.tile t).core

def State.modCore (s : State) (t : Nat) (f : CoreSt → CoreSt) : State := s.modTile t fun x => { x with core := f x.core }

/-- The instruction retires: its result and the next pc. -/
def State.retire (s : State) (t rd v len : Nat) : State :=
  s.modCore t fun c => { c.setReg rd v with pc := (c.pc + len) % 2 ^ 32, wfi := false }

/-- The next pc alone. -/
def State.passed (s : State) (t len : Nat) : State := s.modCore t fun c => { c with pc := (c.pc + len) % 2 ^ 32, wfi := false }

/-! ## Traps (03 R102, 04 R136) -/

/-- A CSR's bits that the machine-mode core keeps. -/
def csrKeep (num v : Nat) : Nat :=
  match num with
  | 0x300 => v &&& 0x88
  | 0x304 => v &&& 0x800
  | 0x305 => v &&& 0xFFFFFFFD
  | 0x341 => v &&& 0xFFFFFFFE
  | _ => v % 2 ^ 32

def CoreSt.csr (c : CoreSt) (num : Nat) : Nat := SMap.get 0 c.csrs num

def CoreSt.setCsr (c : CoreSt) (num v : Nat) : CoreSt := { c with csrs := SMap.set 0 c.csrs num (csrKeep num v) }

/-- The trap registers: pc, cause and value saved, interrupts off. -/
def CoreSt.enterTrap (c : CoreSt) (pc cause tval : Nat) : CoreSt :=
  let st := c.csr 0x300
  let c := (((c.setCsr 0x341 pc).setCsr 0x342 cause).setCsr 0x343 tval).setCsr 0x300 (if st.testBit 3 then 0x80 else 0)
  let base := c.csr 0x305 / 4 * 4
  let vectored := (c.csr 0x305).testBit 0 && cause.testBit 31
  { c with pc := if vectored then (base + 4 * (cause % 2 ^ 31)) % 2 ^ 32 else base, wfi := false, relAt := none }

/-- A trap whose handler address is zero: CORE_TRAP, the core halts, and a running kernel ends with CORE_HALTED. -/
def Work.coreTrap (w : Work) : Work :=
  let t := w.t.faultBit 0
  ({ w with t := { t with core := { t.core with halted := true, wfi := false, restart := false } } }).meetFault 8

/-- The core takes an exception or interrupt. -/
def State.trap (s : State) (t pc cause tval : Nat) : State :=
  let s := s.modCore t fun c => c.enterTrap pc cause tval
  if (s.core t).csr 0x305 / 4 = 0 then s.work t Work.coreTrap else s

/-- The exception of the instruction at the pc. -/
def State.except (s : State) (t cause tval : Nat) : State := s.trap t (s.core t).pc cause tval

/-! ## Fetch -/

/-- A 32-bit word of a core memory is checked: whether it can be delivered, and the counts and event it leaves (03 R100, 15 R478). -/
def Work.checkCore (w : Work) (tile : Nat) (imem : Bool) (word : Nat) : Bool × Work :=
  match SMap.get 0 (if imem then w.t.core.imemErr else w.t.core.dmemErr) word with
  | 0 => (true, w)
  | 2 => (true, w.bump cCoreCorr 1)
  | _ => (false, (w.bump cCoreUncorr 1).post (sramUncorr tile 3 (4 * word + (if imem then 0 else 0x10000))))

/-- The instruction at the pc with its length, and the state after the fetch. -/
def State.fetchRv (s : State) (t : Nat) : (Rv × Nat) × State :=
  let c := s.core t
  if 0x10000 ≤ c.pc then ((.noFetch, 2), s)
  else
    let h := leNat (c.imem.read c.pc 2)
    let len := if h % 4 = 3 then 4 else 2
    let a := (s.begin t).checkCore t true (c.pc / 4)
    let b := if len = 4 && c.pc % 4 = 2 then a.2.checkCore t true (c.pc / 4 + 1) else (true, a.2)
    let s := s.fromWork t b.2
    if !(a.1 && b.1) || (len == 4 && decide (0x10000 < c.pc + 4)) then ((.noFetch, len), s)
    else if len = 4 then ((decode32 (leNat (c.imem.read c.pc 4)), 4), s)
    else ((decode16 h, 2), s)

/-- Row `f` acts on the instruction at the pc where it is one of its own and does not stall; errors met strike first. A march stalls the cores (15 R485). -/
def State.coreStep (s : State) (t : Nat) (errs : List TileErr) (f : Rv → Nat → State → Option State) : State :=
  let c := s.core t
  if !s.isReady || s.drain.heldMarch || c.halted then s
  else
    let s1 := s.work t fun w => errs.foldl Work.strike w
    let r := s1.fetchRv t
    match f r.1.1 r.1.2 r.2 with
    | some s' => s'
    | none => s

/-! ## Where a core's address leads (03 R99) -/

inductive CoreAt where
  | imem (a : Nat)
  | dmem (a : Nat)
  | fifo (high : Bool)
  | queue (e : EngId)
  | control (off : Nat)
  | scratch (off : Nat)
  | die (a : Nat)
  | none_
  deriving DecidableEq, Repr

/-- The core's address map, for an access of `n` bytes. -/
def coreAt (winBase a n : Nat) : CoreAt :=
  if a < 0x10000 then .imem a
  else if a < 0x20000 then .dmem (a - 0x10000)
  else if a = 0x20000 ∧ n = 4 then .fifo false
  else if a = 0x20004 ∧ n = 4 then .fifo true
  else if 0x21000 ≤ a ∧ a < 0x21100 then .queue 0
  else if 0x21100 ≤ a ∧ a < 0x21200 then .queue 1
  else if 0x21200 ≤ a ∧ a < 0x21300 then .queue 2
  else if 0x21300 ≤ a ∧ a < 0x21400 then .queue 3
  else if 0x30000 ≤ a ∧ a < 0x30100 then .control (a - 0x30000)
  else if 0x1000000 ≤ a ∧ a < 0x1200000 then .scratch (a - 0x1000000)
  else if 0x80000000 ≤ a then .die ((winBase * 2 ^ 31 + (a - 0x80000000)) % 2 ^ 64)
  else .none_

def State.coreAt (s : State) (t a n : Nat) : CoreAt := Sys2Proof.Machine.coreAt (s.tile t).ctl.winBase a n

/-! ## Loads -/

/-- Does an earlier access of the core to the same grain wait at or before its home (09 R290)? -/
def State.coreBehind (s : State) (t : TileId) (a : Nat) : Bool :=
  s.txns.any fun x => x.agent == .core t && x.dest.module.isNone && x.dest.addr / 64 == a / 64 && x.stage.before

/-- An access of the core to a tier, as its port meets it (07 R237). -/
def State.coreTxn (s : State) (t : TileId) (a : Nat) : Txn :=
  { id := s.nextId, agent := .core t, kind := .read, dest := ⟨none, a⟩, len := 4, part := s.tilePart t.val, purpose := .posted }

/-- A line is filled by the core's own load: fills of the grain that have been performed before are old (09 R290). -/
def State.coreFill (s : State) (t g : Nat) (d : List Byte) (unchecked : Bool) : State :=
  let old (x : Txn) : Bool := x.fill && x.tile? == some t && x.dest.addr / 64 == g && !x.stage.before
  ({ s with txns := s.txns.map fun x => if old x then { x with stale := true } else x }).modTile t fun x => x.fillLine g d unchecked

/-- A kernel's data is unchecked where what its core reads is (07 R214, R226). -/
def State.noteUnchecked (s : State) (t : Nat) (u : Bool) : State :=
  s.modTile t fun x => { x with kern := { x.kern with unchecked := x.kern.unchecked || (u && x.kern.inKernel) } }

/-- A read of `n` bytes at a die address, performed at its home: data, error, and the state; none while it stalls. -/
def State.dieRead (s : State) (t : TileId) (a n : Nat) : Option (Piece × State) :=
  if s.coreBehind t a then none
  else
    match placeOf a with
    | .tier k off =>
      if s.converting k off then none
      else
        let l := (s.begin t.val).cacheLook t.val a n
        (match l.1 with
         | some (d, u) => some (d, (s.fromWork t.val l.2).noteUnchecked t.val u)
         | none =>
           if !s.served? (s.coreTxn t a) k off false then none
           else
             let s := (s.fromWork t.val l.2).granted (s.coreTxn t a) k off
             let r := s.readHome k (off / 64 * 64) 64 {}
             let d : Piece := ⟨((padTo 64 r.1.bytes).drop (off % 64)).take n, r.1.poison⟩
             let s := (r.2.2.2.checkPage r.2.1).noteUnchecked t.val r.2.2.1
             some (d, if r.1.poison || r.2.1 != 0 then s else s.coreFill t.val (a / 64) (padTo 64 r.1.bytes) r.2.2.1))
    | .scratch u off =>
      if !s.portFree u (bankOf (off / 64)) false then none
      else
        let s := s.modTile u fun x => x.usePort (bankOf (off / 64))
        let w := (s.begin u).readGrain u (off / 64)
        some (⟨(w.1.bytes.drop (off % 64)).take n, w.1.poison⟩, s.fromWork u w.2)
    | .control off =>
      if s.controlMapped off false then (let r := s.controlRead off n; some (⟨r.1.bytes, r.1.poison || r.2.1 != 0⟩, r.2.2))
      else some (⟨noData n, true⟩, s.modCount 0x7209 1 1)
    | .unmapped => some (⟨noData n, true⟩, s.modCount 0x7209 1 1)

/-- CORE_LOAD: everything but the high word of the broadcast FIFO. -/
def State.coreLoad (s : State) (t : TileId) (i : Rv) (len : Nat) : Option State :=
  match i with
  | .load f3 rd rs1 imm =>
    let c := s.core t.val
    let a := c.addr rs1 imm
    let n := accBytes f3
    if a % n != 0 then some (s.except t.val 4 a)
    else
      match s.coreAt t.val a n with
      | .imem o =>
        let w := (s.begin t.val).checkCore t.val true (o / 4)
        let s := s.fromWork t.val w.2
        some (if w.1 then s.retire t.val rd (loadExt f3 (leNat (c.imem.read o n))) len else s.except t.val 5 a)
      | .dmem o =>
        let w := (s.begin t.val).checkCore t.val false (o / 4)
        let s := s.fromWork t.val w.2
        some (if w.1 then s.retire t.val rd (loadExt f3 (leNat (c.dmem.read o n))) len else s.except t.val 5 a)
      | .fifo false =>
        (match (s.tile t.val).fifo with
         | [] => none
         | x :: _ => some (if x.poison then s.except t.val 5 a else s.retire t.val rd (bits x.data 0 32) len))
      | .fifo true => none
      | .queue _ => some (s.except t.val 5 a)
      | .control o =>
        let r := (s.tile t.val).read32 t.val (o / 4 * 4)
        some ((s.setTile t.val r.2).retire t.val rd (loadExt f3 (bits r.1 (8 * (o % 4)) (8 * n))) len)
      | .scratch o =>
        (s.dieRead t (scratchBase t.val + o) n).map fun r =>
          if r.1.poison then r.2.except t.val 5 a else r.2.retire t.val rd (loadExt f3 (leNat r.1.bytes)) len
      | .die o =>
        (s.dieRead t o n).map fun r =>
          if r.1.poison then r.2.except t.val 5 a else r.2.retire t.val rd (loadExt f3 (leNat r.1.bytes)) len
      | .none_ => some (s.except t.val 5 a)
  | _ => none

def execCoreLoad (t : TileId) (errs : List TileErr) (s : State) : Host.Outcome State Fault Refusal :=
  s.inner (s.coreStep t.val errs fun i len s => s.coreLoad t i len)

/-! ## BCAST_FIFO_POP (04 R112) -/

/-- A kernel starts in the tile with the stream whose first word is popped. The loop counts stay as they are (04 R126). -/
def Tile.startKernel (t : Tile) (x : BWord) : Tile :=
  { t.dropCache with
    kern := { inKernel := true, startBeat := true, hawthorn := t.ctl.hawthorn, kernelId := x.kernelId, launch := x.launch }
    eng := t.eng.keys.foldl (fun m e => SMap.mod {} m e fun (x : Engine) => { counts := x.counts }) t.eng, tloadOk := 0, htags := []
    sched := { t.sched with kbeat := 0, engaged := 0, ended := 0, held := false, kfault := 0, curHold := 0, tally := [] } }

/-- The head of the FIFO is popped; a stream's first word starts a kernel. -/
def Tile.pop (t : Tile) : Tile :=
  match t.fifo with
  | [] => t
  | x :: r =>
    let t := if x.start then t.startKernel x else t
    { t with fifo := r, kern := { t.kern with lastPopped := t.kern.lastPopped || x.last } }

/-- The load of the high word: it stalls on an empty FIFO, and before a stream's first word while a kernel runs; a word of bad parity is popped by the load
that traps on it (log 21). -/
def State.fifoPop (s : State) (t : Nat) (i : Rv) (len : Nat) : Option State :=
  match i with
  | .load f3 rd rs1 imm =>
    let a := (s.core t).addr rs1 imm
    if a % accBytes f3 != 0 || s.coreAt t a (accBytes f3) != .fifo true then none
    else
      match (s.tile t).fifo with
      | [] => none
      | x :: _ =>
        if x.start && (s.tile t).kern.inKernel then none
        else
          let s := s.modTile t Tile.pop
          some (if x.poison then s.except t 5 a else s.retire t rd (bits x.data 32 32) len)
  | _ => none

def execBcastFifoPop (t : TileId) (errs : List TileErr) (s : State) : Host.Outcome State Fault Refusal :=
  s.inner (s.coreStep t.val errs fun i len s => s.fifoPop t.val i len)

/-! ## Stores -/

/-- A store of the core leaves for its home through the mesh; its acknowledgement is awaited by fences alone. -/
def State.postStore (s : State) (t : TileId) (a : Nat) (d : List Byte) : State :=
  s.ask { id := 0, agent := .core t, kind := .write, dest := ⟨none, a⟩, len := d.length, data := ⟨d, false⟩,
          part := s.tilePart t.val, sentAt := (s.tile t.val).ctl.beatCount, purpose := .store t }

/-- A store into data memory: a whole word is clean again (15 R479). -/
def CoreSt.storeDmem (c : CoreSt) (o : Nat) (d : List Byte) : CoreSt :=
  { c with dmem := c.dmem.write o d, dmemErr := if d.length = 4 then SMap.set 0 c.dmemErr (o / 4) 0 else c.dmemErr }

/-- A store to the tile's own control block, bytes of a 32-bit half: the others keep their value, W1C bits are not written. -/
def State.ctlStore (s : State) (t o : Nat) (d : List Byte) : State :=
  let h := o / 4 * 4
  let old := if h = 0x18 then 0 else ((s.tile t).read32 t h).1
  s.work t fun w => w.write32 h (setBits old (8 * (o % 4)) (8 * d.length) (leNat d))

/-- CORE_STORE: everything but the queue windows. -/
def State.coreStore (s : State) (t : TileId) (i : Rv) (len : Nat) : Option State :=
  match i with
  | .store f3 rs1 rs2 imm =>
    let c := s.core t.val
    let a := c.addr rs1 imm
    let n := accBytes f3
    let d := leBytes n (c.reg rs2)
    if a % n != 0 then some (s.except t.val 6 a)
    else
      match s.coreAt t.val a n with
      | .dmem o => some ((s.modCore t.val fun c => c.storeDmem o d).passed t.val len)
      | .control o => some ((s.passed t.val len).ctlStore t.val o d)
      | .queue _ => none
      | .scratch o =>
        if s.coreBehind t (scratchBase t.val + o) || !s.portFree t.val (bankOf (o / 64)) true then none
        else
          let s := s.modTile t.val fun x => x.usePort (bankOf (o / 64))
          some (((s.work t.val fun w => w.writeBytes t.val o ⟨d, false⟩).portTag t.val (o / 64) none).passed t.val len)
      | .die o => some ((s.postStore t o d).passed t.val len)
      | _ => some (s.except t.val 7 a)
  | _ => none

def execCoreStore (t : TileId) (errs : List TileErr) (s : State) : Host.Outcome State Fault Refusal :=
  s.inner (s.coreStep t.val errs fun i len s => s.coreStore t i len)

/-- A store to a queue window: the command it completes is pushed, and a full queue stalls it (03 R99, 04 R112, R115). -/
def State.queueStore (s : State) (t : TileId) (e : EngId) (c : Option EngCmd) (bad : Bool) (i : Rv) (len : Nat) : Option State :=
  match i with
  | .store f3 rs1 _ imm =>
    let a := (s.core t.val).addr rs1 imm
    if a % accBytes f3 != 0 || s.coreAt t.val a (accBytes f3) != .queue e then none
    else if c.isSome && (s.tile t.val).kern.inKernel && ((s.tile t.val).engine e).full then none
    else some ((s.passed t.val len).pushCommand t e c bad)
  | _ => none

def execEngineCommandPush (t : TileId) (e : EngId) (c : Option EngCmd) (bad : Bool) (s : State) : Host.Outcome State Fault Refusal :=
  s.inner (s.coreStep t.val [] fun i len s => s.queueStore t e c bad i len)

/-! ## Atomics (03 R101, 09 R303, R306, R308) -/

/-- A release tag of the core at the scope in force. -/
def State.coreRel (s : State) (t : TileId) (rl : Bool) : Option RelTag :=
  if rl then some ⟨(s.core t.val).syncScope, s.briar.pos, .core t⟩ else none

/-- The acquire of an AMO: its tag is checked, and the cache dropped for die scope or wider (09 R298, R303, R304). -/
def State.coreAcq (s : State) (t : TileId) (aq : Bool) (tag : Option RelTag) : State :=
  if aq then
    let sc := (s.core t.val).syncScope
    let s := s.checkTag { id := 0, agent := .core t, kind := .read, dest := ⟨none, 0⟩, len := 0, acq := some sc, purpose := .posted } tag
    if 2 ≤ sc then s.modTile t.val Tile.dropCache else s
  else s

/-- The core's own write of a grain invalidates its line, and makes old what fills are on their way (03 R97, 09 R291). -/
def State.coreWrote (s : State) (t a : Nat) : State :=
  ({ s with txns := s.txns.map fun (x : Txn) => x.aged t (a / 64) }).modTile t fun x => x.cacheDrop (a / 64)

/-- An instruction with rl set is a release as of its issue: it stalls while what the tile issued before that is owed in the scope's home set, and what the tile issues
meanwhile queues behind it (09 R297, R303). -/
def State.coreRelease (s : State) (t : Nat) (rl : Bool) (go : State → Option State) : Option State :=
  if !rl then go s
  else
    let x := s.tile t
    let r := x.core.relAt.getD (x.ctl.beatCount, x.sched.kbeat)
    match (if s.owes t x.core.syncScope (.core r.1 r.2) then none else go (s.modCore t fun c => { c with relAt := none })) with
    | some s' => some s'
    | none => if x.core.relAt.isSome then none else some (s.modCore t fun c => { c with relAt := some r })

/-- An outbound write of the core, as the tile's injection port meets it (09 R297). -/
def State.coreOut (s : State) (t : TileId) (a : Nat) : Txn :=
  { s.coreTxn t a with kind := .write, sentAt := (s.tile t.val).ctl.beatCount }

/-- An AMO at its home in the scratchpad or the die window: the old value, or none where it traps; none while it stalls. -/
def State.homeAmo (s : State) (t : TileId) (f5 a v : Nat) (aq rl : Bool) : Option (Option Nat × State) :=
  let own := (match placeOf a with | .scratch u _ => u == t.val | _ => false)
  if s.coreBehind t a || (!own && s.behindRelease (s.coreOut t a)) then none
  else
    let f (b : List Byte) : List Byte := leBytes 4 (amoOp f5 (leNat b) v)
    match placeOf a with
    | .tier k off =>
      if !s.served? (s.coreTxn t a) k off true then none
      else
        let tag := ((s.tier k).tags.find? (·.1 == off / 64)).map (·.2)
        let s := s.granted (s.coreTxn t a) k off
        let r := ({ k := k, t := s.tier k } : TWork).atomicGrain off 4 f false {}
        let s := (((s.fromTier r.w).checkPage r.status).noteUnchecked t.val r.unchecked).coreWrote t.val a
        if r.poison || r.status != 0 then some (none, s)
        else
          let s := if rl then s.tierTag k (off / 64) (s.coreRel t rl) else s
          some (some (leNat r.data), s.coreAcq t aq tag)
    | .scratch u off =>
      if !s.portFree u (bankOf (off / 64)) true then none
      else
        let tag := ((SMap.get [] s.tileTags u).find? (·.1 == off / 64)).map (·.2)
        let s := s.modTile u fun x => x.usePort (bankOf (off / 64))
        let w := (s.begin u).atomicBytes u off 4 false f
        let s := s.fromWork u w.2
        if w.1.poison then some (none, s)
        else
          let s := if rl then s.portTag u (off / 64) (s.coreRel t rl) else s
          some (some (leNat w.1.bytes), s.coreAcq t aq tag)
    | .control off =>
      (s.controlAtomic off 4 f false).map fun r =>
        if r.1.poison || r.2.1 != 0 then (none, r.2.2) else (some (leNat r.1.bytes), r.2.2.coreAcq t aq none)
    | .unmapped => some (none, s.modCount 0x7209 1 1)

/-- CORE_AMO. -/
def State.coreAmo (s : State) (t : TileId) (i : Rv) (len : Nat) : Option State :=
  match i with
  | .amo f5 rd rs1 rs2 aq rl =>
    let c := s.core t.val
    let a := c.reg rs1
    let v := c.reg rs2
    let finish (r : Option Nat × State) : State :=
      match r.1 with
      | some old => r.2.retire t.val rd old len
      | none => r.2.except t.val 7 a
    if a % 4 != 0 then some (s.except t.val 6 a)
    else
      s.coreRelease t.val rl fun s =>
      match s.coreAt t.val a 4 with
      | .dmem o =>
          let w := (s.begin t.val).checkCore t.val false (o / 4)
          let s := s.fromWork t.val w.2
          let old := leNat (c.dmem.read o 4)
          some (if w.1 then
            ((s.modCore t.val fun c => c.storeDmem o (leBytes 4 (amoOp f5 old v))).coreAcq t aq none).retire t.val rd old len
          else s.except t.val 7 a)
      | .scratch o => (s.homeAmo t f5 (scratchBase t.val + o) v aq rl).map finish
      | .die o => (s.homeAmo t f5 o v aq rl).map finish
      | _ => some (s.except t.val 7 a)
  | _ => none

def execCoreAmo (t : TileId) (errs : List TileErr) (s : State) : Host.Outcome State Fault Refusal :=
  s.inner (s.coreStep t.val errs fun i len s => s.coreAmo t i len)

/-- CORE_LR: in data memory alone (03 R101). -/
def State.coreLr (s : State) (t : TileId) (i : Rv) (len : Nat) : Option State :=
  match i with
  | .lr rd rs1 aq rl =>
    let c := s.core t.val
    let a := c.reg rs1
    if a % 4 != 0 then some (s.except t.val 4 a)
    else
      match s.coreAt t.val a 4 with
      | .dmem o =>
        s.coreRelease t.val rl fun s =>
          let w := (s.begin t.val).checkCore t.val false (o / 4)
          let s := s.fromWork t.val w.2
          some (if w.1 then
            ((s.modCore t.val fun c => { c with resv := some o }).coreAcq t aq none).retire t.val rd (leNat (c.dmem.read o 4)) len
          else s.except t.val 5 a)
      | _ => some (s.except t.val 5 a)
  | _ => none

def execCoreLr (t : TileId) (errs : List TileErr) (s : State) : Host.Outcome State Fault Refusal :=
  s.inner (s.coreStep t.val errs fun i len s => s.coreLr t i len)

/-- CORE_SC: it succeeds on the word its core has reserved, and ends the reservation. -/
def State.coreSc (s : State) (t : TileId) (i : Rv) (len : Nat) : Option State :=
  match i with
  | .sc rd rs1 rs2 aq rl =>
    let c := s.core t.val
    let a := c.reg rs1
    if a % 4 != 0 then some (s.except t.val 6 a)
    else
      match s.coreAt t.val a 4 with
      | .dmem o =>
        s.coreRelease t.val rl fun s =>
        if c.resv == some o then
          some (((s.modCore t.val fun c => { c.storeDmem o (leBytes 4 (c.reg rs2)) with resv := none }).coreAcq t aq none).retire t.val rd 0 len)
        else some ((s.modCore t.val fun c => { c with resv := none }).retire t.val rd 1 len)
      | _ => some (s.except t.val 7 a)
  | _ => none

def execCoreSc (t : TileId) (errs : List TileErr) (s : State) : Host.Outcome State Fault Refusal :=
  s.inner (s.coreStep t.val errs fun i len s => s.coreSc t i len)

/-! ## Fences (09 R303) -/

/-- Does a store or AMO of the core in the scope's home set wait to be performed? -/
def State.coreOwes (s : State) (t : TileId) (scope : Nat) : Bool :=
  s.txns.any fun x => x.agent == .core t && x.kind != .read && inHomeSet scope t.val x.dest

/-- A fence with predecessor and successor sets (bit 3 I, 2 O, 1 R, 0 W). -/
def State.fence (s : State) (t : TileId) (pred succ len : Nat) : Option State :=
  let sc := (s.core t.val).syncScope
  if (pred.testBit 0 || pred.testBit 2) && s.coreOwes t sc then none
  else
    let s := if (succ.testBit 1 || succ.testBit 3) && decide (2 ≤ sc) then s.modTile t.val Tile.dropCache else s
    some (s.passed t.val len)

def execCoreFence (t : TileId) (errs : List TileErr) (s : State) : Host.Outcome State Fault Refusal :=
  s.inner (s.coreStep t.val errs fun i len s => match i with | .fence p q => s.fence t p q len | _ => none)

def execFenceTso (t : TileId) (errs : List TileErr) (s : State) : Host.Outcome State Fault Refusal :=
  s.inner (s.coreStep t.val errs fun i len s => match i with | .fenceTso => s.fence t 3 3 len | _ => none)

def execFenceI (t : TileId) (errs : List TileErr) (s : State) : Host.Outcome State Fault Refusal :=
  s.inner (s.coreStep t.val errs fun i len s => match i with | .fenceI => some (s.passed t.val len) | _ => none)

/-! ## Interrupts (03 R102) -/

/-- The external interrupt line: a source enabled in TILE_CTL.IRQ_EN. -/
def Tile.irqLine (t : Tile) : Bool :=
  (t.ctl.irqEn.testBit 0 && !t.fifo.isEmpty) ||
  (t.ctl.irqEn.testBit 1 && ([0, 1, 2, 3] : List EngId).any fun e => decide ((t.engine e).queue.length ≤ 32)) ||
  (t.ctl.irqEn.testBit 2 && t.ctl.fault != 0)

/-- An interrupt is pending and enabled in mie. -/
def Tile.irqWakes (t : Tile) : Bool := t.irqLine && (t.core.csr 0x304).testBit 11

/-- WFI: waits for an enabled interrupt. -/
def State.coreWfi (s : State) (t len : Nat) : State :=
  if (s.tile t).irqWakes then s.passed t len else s.modCore t fun c => { c with wfi := true }

def execWfi (t : TileId) (errs : List TileErr) (s : State) : Host.Outcome State Fault Refusal :=
  s.inner (s.coreStep t.val errs fun i len s => match i with | .wfi => some (s.coreWfi t.val len) | _ => none)

/-- The machine external interrupt is taken; a core that waits in WFI resumes after it. -/
def State.coreInterrupt (s : State) (t : Nat) : State :=
  let x := s.tile t
  if x.core.halted || !x.irqWakes || !(x.core.csr 0x300).testBit 3 then s
  else s.trap t (if x.core.wfi then (x.core.pc + 4) % 2 ^ 32 else x.core.pc) 0x8000000B 0

def execCoreInterrupt (t : TileId) (s : State) : Host.Outcome State Fault Refusal :=
  s.inner (if s.isReady && !s.drain.heldMarch then s.coreInterrupt t.val else s)

/-! ## CSRs (03 R69, R101, R102; 09 R302) -/

/-- A CSR as read; none where the core has no such register. -/
def State.csrRead (s : State) (t num : Nat) : Option Nat :=
  let c := s.core t
  match num with
  | 0x300 => some (c.csr 0x300 ||| 0x1800)
  | 0x301 => some 0x40001105
  | 0x304 => some (c.csr 0x304)
  | 0x305 => some (c.csr 0x305)
  | 0x310 => some 0
  | 0x340 => some (c.csr 0x340)
  | 0x341 => some (c.csr 0x341)
  | 0x342 => some (c.csr 0x342)
  | 0x343 => some (c.csr 0x343)
  | 0x344 => some (if (s.tile t).irqLine then 0x800 else 0)
  | 0x7C0 => some c.syncScope
  | 0xF11 => some 0
  | 0xF12 => some 0
  | 0xF13 => some 0
  | 0xF14 => some t
  | 0xF15 => some 0
  | _ => none

/-- A write of a CSR that has stored bits. SYNCSCOPE keeps its value where the new one is no scope (09 R302). -/
def CoreSt.csrWrite (c : CoreSt) (num v : Nat) : CoreSt :=
  if num = 0x7C0 then (if bits v 0 3 < 5 then { c with syncScope := bits v 0 3 } else c)
  else if [0x300, 0x304, 0x305, 0x340, 0x341, 0x342, 0x343].contains num then c.setCsr num v
  else c

/-- Does a CSR instruction write: CSRRW always, the others with a source other than x0 or zero? -/
def csrWrites (f3 rs1 : Nat) : Bool := f3 == 1 || rs1 != 0

/-- A CSR instruction; a write of a read-only register, or a register the core has not, is an illegal instruction. -/
def State.csrOp (s : State) (t f3 rd rs1 num : Nat) (imm : Bool) (len : Nat) : State :=
  let c := s.core t
  match s.csrRead t num with
  | none => s.except t 2 (Config.trapValue 2 c.pc).toNat
  | some old =>
    if csrWrites f3 rs1 && num / 1024 == 3 then s.except t 2 (Config.trapValue 2 c.pc).toNat
    else
      let v := if imm then rs1 else c.reg rs1
      let new := if f3 = 1 then v else if f3 = 2 then old ||| v else old - (old &&& v)
      let s := if csrWrites f3 rs1 then s.modCore t fun c => c.csrWrite num new else s
      s.retire t rd old len

/-- SYNCSCOPE_WRITE: a CSR instruction that writes SYNCSCOPE. -/
def execSyncscopeWrite (t : TileId) (errs : List TileErr) (s : State) : Host.Outcome State Fault Refusal :=
  s.inner (s.coreStep t.val errs fun i len s =>
    match i with
    | .csr f3 rd rs1 num imm => if num = 0x7C0 && csrWrites f3 rs1 then some (s.csrOp t.val f3 rd rs1 num imm len) else none
    | _ => none)

/-! ## CORE_INSTRUCTION -/

/-- Every instruction that has no row of its own: those of registers alone, jumps and branches, CSRs, ECALL, EBREAK, MRET, and the illegal ones and
failed fetches, which trap. The trap values of which no rule speaks are open (log 23). -/
def State.coreOther (s : State) (t : Nat) (i : Rv) (len : Nat) : Option State :=
  let c := s.core t
  let jump (rd target : Nat) : Option State :=
    some (s.modCore t fun c => { c.setReg rd (c.pc + len) with pc := target / 2 * 2 % 2 ^ 32, wfi := false })
  match i with
  | .lui rd imm => some (s.retire t rd (toBits 32 imm) len)
  | .auipc rd imm => some (s.retire t rd (toBits 32 ((c.pc : Int) + imm)) len)
  | .jal rd imm => jump rd (toBits 32 ((c.pc : Int) + imm))
  | .jalr rd rs1 imm => jump rd (c.addr rs1 imm)
  | .branch f3 a b imm =>
    if branchTaken f3 (c.reg a) (c.reg b) then jump 0 (toBits 32 ((c.pc : Int) + imm)) else some (s.passed t len)
  | .opImm f3 rd rs1 imm arith => some (s.retire t rd (aluOp f3 arith (c.reg rs1) (toBits 32 imm)) len)
  | .op f3 rd a b alt => some (s.retire t rd (aluOp f3 alt (c.reg a) (c.reg b)) len)
  | .mul f3 rd a b => some (s.retire t rd (mulOp f3 (c.reg a) (c.reg b)) len)
  | .ecall => some (s.except t 11 (Config.trapValue 11 c.pc).toNat)
  | .ebreak => some (s.except t 3 (Config.trapValue 3 c.pc).toNat)
  | .mret =>
    some (s.modCore t fun c =>
      let st := c.csr 0x300
      { c.setCsr 0x300 (0x80 + (if st.testBit 7 then 8 else 0)) with pc := c.csr 0x341, wfi := false })
  | .csr f3 rd rs1 num imm => if num = 0x7C0 && csrWrites f3 rs1 then none else some (s.csrOp t f3 rd rs1 num imm len)
  | .illegal => some (s.except t 2 (Config.trapValue 2 c.pc).toNat)
  | .noFetch => some (s.except t 1 c.pc)
  | _ => none

def execCoreInstruction (t : TileId) (errs : List TileErr) (s : State) : Host.Outcome State Fault Refusal :=
  s.inner (s.coreStep t.val errs fun i len s => s.coreOther t.val i len)

/-! ## TILE_CTL by the steward (03 R103, 04 R136) -/

/-- A write of a tile's TILE_CTL through a port: the steward's is performed, another port's is counted (10 R343). -/
def State.ctlFrom (s : State) (p : PortId) (t v : Nat) : State :=
  if !s.portUp p then s
  else if p = s.stew.port then s.work t fun w => w.tileCtl v
  else s.modCount 0x4200 2 1

/-- TILE_CTL as it stands with a bit set, or with CORE_RUN cleared. -/
def Tile.ctlWith (t : Tile) (bit : Nat) : Nat := t.ctlWord ||| 2 ^ bit

def execCoreRun (p : PortId) (t : TileId) (s : State) : Host.Outcome State Fault Refusal :=
  s.inner (s.ctlFrom p t.val ((s.tile t.val).ctlWith 0))

def execCoreHalt (p : PortId) (t : TileId) (s : State) : Host.Outcome State Fault Refusal :=
  s.inner (s.ctlFrom p t.val ((s.tile t.val).ctlWord - (s.tile t.val).ctlWord % 2))

def execCacheInv (p : PortId) (t : TileId) (s : State) : Host.Outcome State Fault Refusal :=
  s.inner (s.ctlFrom p t.val ((s.tile t.val).ctlWith 1))

def execTileCntClr (p : PortId) (t : TileId) (s : State) : Host.Outcome State Fault Refusal :=
  s.inner (s.ctlFrom p t.val ((s.tile t.val).ctlWith 3))

end Sys2Proof.Machine
end

