-- ==== Sys2Proof/Machine/EngineRows.lean ====
section
/-!
DEFINITION. Meanings of the operations of the tensor, vector, gather and DMA engines (04 R120; 05 R151 to R162; 06 R189 to R200): each issues from
the head of its engine's queue when it is due and nothing holds the tile.
-/

namespace Sys2Proof.Machine

/-! ## Tensor engine -/

/-- TLOAD (04 R120, 05 R157). -/
def execTload (t : TileId) (s : State) : Host.Outcome State Fault Refusal :=
  s.inner (s.issue t 0 fun q idx w =>
    match q.cmd.op with
    | .tload f src sc a b => some (issueTload q idx f.val src sc a b w)
    | _ => none)

/-- TSWAP (04 R120). -/
def execTswap (t : TileId) (s : State) : Host.Outcome State Fault Refusal :=
  s.inner (s.issue t 0 fun q _ w =>
    match q.cmd.op with
    | .tswap => some (issueTswap q w)
    | _ => none)

/-- TMUL (05 R153 to R158). -/
def execTmul (t : TileId) (s : State) : Host.Outcome State Fault Refusal :=
  s.inner (s.issue t 0 fun q idx w =>
    match q.cmd.op with
    | .tmul m _ rows src sc _ _ _ _ a b _ => some (issueTmul q idx m.val rows src sc a b w)
    | _ => none)

/-- TZERO (04 R124). -/
def execTzero (t : TileId) (s : State) : Host.Outcome State Fault Refusal :=
  s.inner (s.issue t 0 fun q _ w =>
    match q.cmd.op with
    | .tzero => some (issueTzero q w)
    | _ => none)

/-- TSTORE (05 R159). -/
def execTstore (t : TileId) (s : State) : Host.Outcome State Fault Refusal :=
  s.inner (s.issue t 0 fun q idx w =>
    match q.cmd.op with
    | .tstore rows dst _ f _ _ _ _ _ _ n => some (issueTstore q idx rows dst f.val n w)
    | _ => none)

/-! ## Vector engine -/

/-- VLOAD (04 R120). -/
def execVload (t : TileId) (s : State) : Host.Outcome State Fault Refusal :=
  s.inner (s.issue t 1 fun q idx w =>
    match q.cmd.op with
    | .vload rd off len src n => some (issueVload q idx rd.val off len src n w)
    | _ => none)

/-- VSTORE (04 R120). -/
def execVstore (t : TileId) (s : State) : Host.Outcome State Fault Refusal :=
  s.inner (s.issue t 1 fun q idx w =>
    match q.cmd.op with
    | .vstore rs off len dst n => some (issueVstore q idx rs.val off len dst n w)
    | _ => none)

/-- VADD (05 R160, R161). -/
def execVadd (t : TileId) (s : State) : Host.Outcome State Fault Refusal :=
  s.inner (s.issue t 1 fun q _ w =>
    match q.cmd.op with
    | .vec .add h rd ra rb rc a b c => some (issueVec q .add h rd.val ra.val rb.val rc.val a b c w)
    | _ => none)

/-- VMUL (05 R160, R161). -/
def execVmul (t : TileId) (s : State) : Host.Outcome State Fault Refusal :=
  s.inner (s.issue t 1 fun q _ w =>
    match q.cmd.op with
    | .vec .mul h rd ra rb rc a b c => some (issueVec q .mul h rd.val ra.val rb.val rc.val a b c w)
    | _ => none)

/-- VFMA (05 R160, R161). -/
def execVfma (t : TileId) (s : State) : Host.Outcome State Fault Refusal :=
  s.inner (s.issue t 1 fun q _ w =>
    match q.cmd.op with
    | .vec .fma h rd ra rb rc a b c => some (issueVec q .fma h rd.val ra.val rb.val rc.val a b c w)
    | _ => none)

/-- VMAX (05 R160, R161). -/
def execVmax (t : TileId) (s : State) : Host.Outcome State Fault Refusal :=
  s.inner (s.issue t 1 fun q _ w =>
    match q.cmd.op with
    | .vec .max h rd ra rb rc a b c => some (issueVec q .max h rd.val ra.val rb.val rc.val a b c w)
    | _ => none)

/-- VMIN (05 R160, R161). -/
def execVmin (t : TileId) (s : State) : Host.Outcome State Fault Refusal :=
  s.inner (s.issue t 1 fun q _ w =>
    match q.cmd.op with
    | .vec .min h rd ra rb rc a b c => some (issueVec q .min h rd.val ra.val rb.val rc.val a b c w)
    | _ => none)

/-- VSEL (05 R160, R161). -/
def execVsel (t : TileId) (s : State) : Host.Outcome State Fault Refusal :=
  s.inner (s.issue t 1 fun q _ w =>
    match q.cmd.op with
    | .vec .sel h rd ra rb rc a b c => some (issueVec q .sel h rd.val ra.val rb.val rc.val a b c w)
    | _ => none)

/-- VEXP (05 R160, R161). -/
def execVexp (t : TileId) (s : State) : Host.Outcome State Fault Refusal :=
  s.inner (s.issue t 1 fun q _ w =>
    match q.cmd.op with
    | .vec .exp h rd ra rb rc a b c => some (issueVec q .exp h rd.val ra.val rb.val rc.val a b c w)
    | _ => none)

/-- VRCP (05 R160, R161). -/
def execVrcp (t : TileId) (s : State) : Host.Outcome State Fault Refusal :=
  s.inner (s.issue t 1 fun q _ w =>
    match q.cmd.op with
    | .vec .rcp h rd ra rb rc a b c => some (issueVec q .rcp h rd.val ra.val rb.val rc.val a b c w)
    | _ => none)

/-- VRSQRT (05 R160, R161). -/
def execVrsqrt (t : TileId) (s : State) : Host.Outcome State Fault Refusal :=
  s.inner (s.issue t 1 fun q _ w =>
    match q.cmd.op with
    | .vec .rsqrt h rd ra rb rc a b c => some (issueVec q .rsqrt h rd.val ra.val rb.val rc.val a b c w)
    | _ => none)

/-- VSILU (05 R160, R161). -/
def execVsilu (t : TileId) (s : State) : Host.Outcome State Fault Refusal :=
  s.inner (s.issue t 1 fun q _ w =>
    match q.cmd.op with
    | .vec .silu h rd ra rb rc a b c => some (issueVec q .silu h rd.val ra.val rb.val rc.val a b c w)
    | _ => none)

/-- VCMP (05 R160, R161). -/
def execVcmp (t : TileId) (s : State) : Host.Outcome State Fault Refusal :=
  s.inner (s.issue t 1 fun q _ w =>
    match q.cmd.op with
    | .vec (.cmp r) h rd ra rb rc a b c => some (issueVec q (.cmp r) h rd.val ra.val rb.val rc.val a b c w)
    | _ => none)

/-- VREDUCE: both of its reductions, sum and maximum (05 R160). -/
def execVreduce (t : TileId) (s : State) : Host.Outcome State Fault Refusal :=
  s.inner (s.issue t 1 fun q _ w =>
    match q.cmd.op with
    | .vec .redSum h rd ra rb rc a b c => some (issueVec q .redSum h rd.val ra.val rb.val rc.val a b c w)
    | .vec .redMax h rd ra rb rc a b c => some (issueVec q .redMax h rd.val ra.val rb.val rc.val a b c w)
    | _ => none)

/-- VCVT (05 R151). -/
def execVcvt (t : TileId) (s : State) : Host.Outcome State Fault Refusal :=
  s.inner (s.issue t 1 fun q _ w =>
    match q.cmd.op with
    | .vcvt rd ra sf df se sz de rz cls slot a => some (issueVcvt q rd.val ra.val sf.val df.val se sz de rz cls.val slot a w)
    | _ => none)

/-- VSCALE (05 R162). -/
def execVscale (t : TileId) (s : State) : Host.Outcome State Fault Refusal :=
  s.inner (s.issue t 1 fun q _ w =>
    match q.cmd.op with
    | .vscale rd ra h f rz a => some (issueVscale q rd.val ra.val h f.val rz a w)
    | _ => none)

/-! ## Gather engine -/

/-- GLOCAL (06 R196). -/
def execGlocal (t : TileId) (s : State) : Host.Outcome State Fault Refusal :=
  s.inner (s.issue t 2 fun q idx w =>
    match q.cmd.op with
    | .glocal n ia dst _ a _ => some (issueGlocal s.ring q idx n ia dst a w)
    | _ => none)

/-- GREMOTE (06 R195). -/
def execGremote (t : TileId) (s : State) : Host.Outcome State Fault Refusal :=
  s.inner (s.issue t 2 fun q idx w =>
    match q.cmd.op with
    | .gremote n ia dst _ tl od a => some (issueGremote s.ring q idx n ia dst tl od a w)
    | _ => none)

/-- SCATTER (06 R198). -/
def execScatter (t : TileId) (s : State) : Host.Outcome State Fault Refusal :=
  s.inner (s.issue t 2 fun q idx w =>
    match q.cmd.op with
    | .scatter none n ia src _ tl od a => some (issueScatter s.ring q idx none n ia src tl od a w)
    | _ => none)

/-- SCATTER_ADD (06 R198 to R200). -/
def execScatterAdd (t : TileId) (s : State) : Host.Outcome State Fault Refusal :=
  s.inner (s.issue t 2 fun q idx w =>
    match q.cmd.op with
    | .scatter (some c) n ia src _ tl od a => some (issueScatter s.ring q idx (some c) n ia src tl od a w)
    | _ => none)

/-! ## DMA engine -/

/-- DLOCAL (04 R120). -/
def execDlocal (t : TileId) (s : State) : Host.Outcome State Fault Refusal :=
  s.inner (s.issue t 3 fun q idx w =>
    match q.cmd.op with
    | .dlocal g src dst a => some (issueDlocal q idx g src dst a w)
    | _ => none)

/-- DOUT (06 R189 to R191). -/
def execDout (t : TileId) (s : State) : Host.Outcome State Fault Refusal :=
  s.inner (s.issue t 3 fun q idx w =>
    match q.cmd.op with
    | .dout g src far tl _ od a => some (issueDout s.ring q idx g src far tl od a w)
    | _ => none)

/-- DIN (06 R189 to R191). -/
def execDin (t : TileId) (s : State) : Host.Outcome State Fault Refusal :=
  s.inner (s.issue t 3 fun q idx w =>
    match q.cmd.op with
    | .din g dst far tl od => some (issueDin t s.ring q idx g dst far tl od w)
    | _ => none)

end Sys2Proof.Machine
end

