-- ==== Sys2Proof/Machine/Start.lean ====
section
/-!
DEFINITION. Rows COLD_START and WARM_START: the ten steps of a start, what each start keeps, and a start that stops or is abandoned
(16 R496 to R507; 07 R234; 12 R391, R392; 13 R417, R429, R437, R438; 15 R486, R491).
-/

namespace Sys2Proof.Machine

/-- A start (16 R498, R499): cold; otherwise warm, from Slumber or not, with Keep-memory in force or not. -/
structure StartKind where
  cold : Bool
  slumber : Bool
  keep : Bool
  deriving DecidableEq, Repr

/-- The kind of the start that is due; Keep-memory is in force after Slumber (16 R498). -/
def State.startKind (s : State) (cold : Bool) : StartKind :=
  { cold := cold, slumber := !cold && s.power.fromSlumber, keep := !cold && (s.power.fromSlumber || s.odv 0x9010 1 == 1) }

/-- Nominal durations of steps 1 to 9 in µs (16 R499). -/
def StartKind.steps (k : StartKind) : List Nat :=
  if k.cold then [40000, 10000, 20000, 120000, 2000, 1500000, 70000, 35000, 3000]
  else if k.slumber then [40000, 0, 20000, 120000, 2000, 228000, 0, 35000, 3000]
  else [40000, 0, 2000, 40000, 2000, 228000, if k.keep then 0 else 70000, 35000, 3000]

/-- How a start ends that does not reach Ready: its step, and the cause of 16 R501, or 0 where it is still in that step. -/
def startStops (o : StartIn) (cold : Bool) : Option (Nat × Nat) :=
  o.fail.filter fun x =>
    ([(1, 1), (3, 3), (6, 4), (8, 5)].contains x || (cold && x == (2, 2))) || (x.2 == 0 && decide (1 ≤ x.1) && decide (x.1 ≤ 9))

/-- Entries of the pending hard-repair list (07 R234): place in the list and word. -/
def State.hardList (s : State) : List (Nat × Nat) :=
  ((List.range 16).map fun i => (i, s.odv 0x9201 (i + 1))).filter fun e => e.2.testBit 31

/-- Time that a start takes to its end, in µs: each listed hard repair adds 2.5 ms to step 6 (16 R500). -/
def State.startTime (s : State) (k : StartKind) (stop : Option (Nat × Nat)) : Nat :=
  let l := k.steps.zipIdx.map fun x => x.1 + (if x.2 = 5 then 2500 * s.hardList.length else 0)
  match stop with
  | none => l.sum
  | some (n, c) => (l.take (if c = 0 then n - 1 else n)).sum

/-! ## Step 1: the parameter memory, the log, the address (13 R417, R437, R438; 16 R500; 15 R491) -/

/-- Does an entry keep its value through the start (13 R437)? -/
def keptEntry (cold dflts : Bool) (key : Nat) : Bool :=
  match odRow (key / 256) (key % 256) with
  | some r => if r.cls = 2 then !(dflts && r.right == 1 && r.i0 != 0x9201) else !(cold && r.cls == 1)
  | none => false

/-- An entry with no valid copy in the parameter memory takes its default. -/
def State.loseParam (s : State) (x : Nat × Nat) : State :=
  if x == (0x8000, 2) then { s with ownerKey := zeros 64 }
  else { s with od := SMap.drop s.od fun k => k == odKey x.1 x.2 }

/-- Copies that are found damaged: of Stored entries only. -/
def lostParams (o : StartIn) : List (Nat × Nat) :=
  o.paramsLost.filter fun x => match odRow x.1 x.2 with | some r => r.cls == 2 | none => false

/-- The entries that a start returns to their defaults on request (13 R442 OD 0x1000.0F): each is a write of the parameter memory (log 66). -/
def State.returned (s : State) (cold : Bool) : Nat :=
  s.od.countP fun e => !keptEntry cold s.power.defaultsAtStart e.1 && (match odRow (e.1 / 256) (e.1 % 256) with | some r => r.cls == 2 | none => false)

/-- The counters of the starts, and the writes of the parameter memory that count them and that return entries to their defaults (13 R440, R442; 16 R500). -/
def Power.counted (x : Power) (cold : Bool) (lost : List (Nat × Nat)) (returned : Nat) : Power :=
  let cs := if lost.contains (0x1000, 9) then 0 else x.coldStarts
  let ws := if lost.contains (0x1000, 0xB) then 0 else x.warmStarts
  let pw := if lost.contains (0x1000, 0xC) then 0 else x.paramWrites
  { x with
    defaultsAtStart := false, paramWrites := add64 pw (returned + 1), lastKind := if cold then 1 else 2
    coldStarts := if cold then inc32 cs else cs, warmStarts := if cold then ws else inc32 ws }

/-- The Stored entries are read; the start is counted. -/
def State.readParams (s : State) (cold : Bool) (o : StartIn) : State :=
  let n := s.returned cold
  let s := { s with od := s.od.filter fun e => keptEntry cold s.power.defaultsAtStart e.1 }
  let s := (lostParams o).foldl State.loseParam s
  { s with power := s.power.counted cold (lostParams o) n }

/-- Hedgerow after the address has been taken; its links are lost unless the by-pass stayed open, as it does on leaving Slumber. -/
def State.hrAtStart (s : State) : Hr :=
  { addr := if s.odv 0x1100 1 = 1 then s.power.slotId else s.odv 0x1100 2
    inUp := s.power.bypassOpen && s.hr.inUp, outUp := s.power.bypassOpen && s.hr.outUp
    sweepCtr := 0, sweepAt := s.ts, cnt := [] }

/-- The log is emptied and START entered; then an event for each entry of the parameter memory that was lost. -/
def State.firstRecords (s : State) (cold : Bool) (o : StartIn) : State :=
  let cause := s.power.causeLatch
  let e : Ev := { code := 0x01, source := 0x90, args := [if cold then 1 else 2, cause, if cause = 4 then s.power.causeRail else 0], time := s.ts }
  let s := ({ s with log := {} }).record e
  s.postAll ((lostParams o).map fun x => { code := 0x71, source := 0x90, args := [x.1, x.2] })

/-- Step 1. A cold start begins the timestamp anew (02 R60); measurement rounds begin, with the fans released until they are governed (14 R453; 01 R36). A march's
results are Volatile; its soft repairs are kept in the island, but not through a cold start (15 R486). -/
def State.startStep1 (s : State) (k : StartKind) (o : StartIn) : State :=
  let t0 := if k.cold then 0 else s.ts
  let s := { s with ts := t0, laurel := {}, dictQ := [], stored := [], captured := [], march := { soft := if k.cold then 0 else s.march.soft, fused := s.march.fused } }
  let s := { s with power := { s.power with isolated := true, pstate := 0, fromSlumber := k.slumber, pwmReleased := true }, hk := { Hk.stopped with roundAt := t0 } }
  let s := s.readParams k.cold o
  let s := { s with hr := s.hrAtStart }
  s.firstRecords k.cold o

/-! ## What the start keeps of the die (16 R505) -/

/-- A tile after a start: its scratchpad, vector registers, accumulators and stationary buffers kept, or zero. The march of a warm start writes corrected
words of the scratchpad back (15 R484). -/
def Tile.started (keep : Bool) (x : Tile) : Tile :=
  if keep then
    { scratch := x.scratch, words := x.words.filter (fun e => e.2 != 2), vreg := x.vreg, vregPoison := x.vregPoison
      acc := x.acc, accPoison := x.accPoison, active := x.active, shadow := x.shadow }
  else {}

/-- A Privet unit after a start: its buffer kept, or zero. -/
def PUnit.started (keep : Bool) (x : PUnit) : PUnit :=
  if keep then { buffer := x.buffer, bufWords := x.bufWords.filter fun e => e.2 != 2 } else {}

/-- A tier whose control block, counters, tags and pending command are at their reset values. -/
def Tier.restart (t : Tier) : Tier :=
  { t with
    pending := none, result := 0, pageResult := 0, lastPage := 0, cnt := [], scrubAt := 0, scrubFixed := 0, scrubRows := [], scrubFrom := none
    scrubDone := false, lastGrant := [], convWait := 0, conv := t.conv.map fun c => { c with grain := 0 }
    tags := [], refresh := [], doze := false }

/-- Is a page in states 1 to 3, which step 7 skips (16 R500)? -/
def Tier.skipped (t : Tier) (page : Nat) : Bool := t.page page != 0

/-- A stack whose table is empty and whose pages in service hold the fill of a generation, 0 being zero and Sealed (16 R500). -/
def Tier.refilled (t : Tier) (g : Nat) : Tier :=
  let kept := (t.pages.keys).filter t.skipped
  let fills := kept.foldl (fun (m : SMap Nat) p => SMap.set 0 m p (SMap.get t.fillBase t.fillPage p)) []
  { t.restart with
    mem := t.mem.filter fun e => t.skipped (pageOf e.1)
    words := t.words.filter fun e => t.skipped (pageOf (32 * e.1))
    fillBase := g, fillPage := fills, fillRow := t.fillRow.filter fun e => t.skipped (pageOf (2048 * e.1))
    entries := [], conv := none }

/-- A tier at a start. A cold start rebuilds the stack Blight Maps from its memory test and loses the soft repairs; hard ones stay (07 R231, R233).
What step 7 has partly written is neither kept nor Sealed (16 R504). -/
def Tier.started (k : StartKind) (done tier : Nat) (t : Tier) : Tier :=
  if k.cold then
    (if tier = 8 then { fillBase := t.nextFill, nextFill := t.nextFill + 1 } else { nextFill := t.nextFill, hardUsed := t.hardUsed })
  else if k.keep then t.restart
  else if tier = 8 then { fillBase := t.nextFill, nextFill := t.nextFill + 1, pages := t.pages }
  else if 7 ≤ done then t.refilled 0
  else if done = 6 then { t.refilled t.nextFill with nextFill := t.nextFill + 1 }
  else { t.restart with entries := [], conv := none }

/-- A row found bad by the read-back of step 7: its page is Blighted with cause 1 (16 R500). -/
def State.badRow (s : State) (x : StackId × Nat × Fin 64 × Fin 16) : State :=
  s.tierWork x.1 fun w => w.blight x.2.1 1 (some (x.2.2.1.val, x.2.2.2.val))

/-- Step 7's read-back: it runs where the step does, on the pages in service. -/
def State.readBack (s : State) (k : StartKind) (o : StartIn) : State :=
  if k.keep then s
  else (o.badRows.filter fun x => decide (x.2.1 < tierPages 0) && !(s.tier x.1).skipped x.2.1).foldl State.badRow s

/-- A listed repair is fused: its list entry is cleared, one of its bank's two hard-repair rows is in use, and the soft-repair row is free again
(07 R233, R234). An unconfirmed one stays listed; so does one whose bank has no row left. -/
def State.fuseOne (s : State) (e : Nat × Nat) : State :=
  let w := e.2
  let k := bits w 0 3
  let key := 64 * (16 * bits w 9 2 + bits w 11 4) + bits w 3 6
  let t := s.tier k
  if SMap.get 0 t.hardUsed key < 2 then
    let s := s.setTier k { t with hardUsed := SMap.mod 0 t.hardUsed key (· + 1), softUsed := SMap.set 0 t.softUsed key 0 }
    ({ s with od := odStore s.od 0x9201 (e.1 + 1) 0 }).wroteParam
  else s

/-- The fuses of step 6. -/
def State.fuseList (s : State) (o : StartIn) : State :=
  (s.hardList.filter fun e => !(o.unconfirmed.any fun i => i.val == e.1)).foldl State.fuseOne s

/-- The Briar ports at a start (12 R391 to R394). -/
def State.briarAtStart (s : State) : Briar :=
  let n := s.odv 0x4800 1
  let pos := if s.odv 0x4800 2 = 1 then s.power.slotId else s.odv 0x4800 3
  let state (b : Nat) : Nat :=
    if n ≤ pos || (n == 2 && b % 2 == 1) then 0 else if (s.bport b).cable then 2 else 1
  { n := n, pos := pos, ringId := s.odv 0x4800 4
    ports := (List.range 4).foldl (fun (m : SMap BriarPort) b => SMap.set {} m b { state := state b, cable := (s.bport b).cable }) [] }

/-- The host ports after a start: their resets are counted since the last cold start (10 R317). -/
def State.portsAtStart (s : State) (cold : Bool) : SMap Port :=
  if cold then [] else ([false, true] : List PortId).foldl (fun m p => SMap.set {} m (b2n p) { resets := (s.port p).resets }) []

/-- The parts of the die that no start keeps. -/
def State.dieReset (s : State) (cold : Bool) : State :=
  let s := s.loseFlight
  let s := { s with tileTags := [], ports := s.portsAtStart cold, places := {}, queues := [], buckets := [], regNow := SMap.drop s.od (fun k => decide (k < 0x520000) || decide (0x521000 ≤ k)), partCnt := [], modCnt := [], arbs := [] }
  { s with
    stew := { port := decide (s.odv 0x4100 1 = 2) }, laurel := { policy := SMap.drop s.od (fun k => decide (k < 0x600000) || decide (0x600100 ≤ k)) }, briar := s.briarAtStart, totals := {}, report := {}, model := none
    sigRefused := 0 }

/-- The march of step 4, with the repairs that step 5 applies (15 R486). A result is reported where a column has no spare. -/
def State.startMarch (s : State) (k : StartKind) (o : StartIn) : State :=
  let m := s.march
  let s := { s with march := { soft := m.soft, fused := if k.cold then min 65535 o.fused else m.fused } }
  let s := s.marchFound o.march
  if o.march.noSpare.isEmpty then s else { s with march := { s.march with result := 4 } }

/-- What the steps up to `done` do to the die. -/
def State.startDie (s : State) (k : StartKind) (o : StartIn) (done : Nat) : State :=
  let sram := !k.cold && !k.slumber
  let s := s.tiles.keys.foldl (fun (s : State) t => s.modTile t (Tile.started sram)) s
  let s := s.units.keys.foldl (fun (s : State) u => s.modUnit u (PUnit.started sram)) s
  let s := s.dieReset k.cold
  let s := (List.range 9).foldl (fun (s : State) i => s.setTier i ((s.tier i).started k done i)) s
  let s := if 4 ≤ done then s.startMarch k o else s
  let s := if 6 ≤ done then s.fuseList o else s
  let s := if 7 ≤ done then s.readBack k o else s
  let s := { s with keyReady := decide (8 ≤ done) }
  if s.briar.n != 0 && decide (s.briar.n ≤ s.briar.pos) && decide (9 ≤ done) then s.post { code := 0x61, source := 0x90, args := [0, s.briar.pos] } else s

/-! ## The end of a start -/

/-- Step 1 samples SLOT_ID (16 R499). At a start that follows a release of module reset or power-on it is that moment's sample (01 R24), already taken; a start
from Slumber, which has none, samples the straps in step 1 (DEDUCED, log 87). -/
def State.sampleStraps (s : State) (k : StartKind) (o : StartIn) : State :=
  match o.straps with
  | some v => if k.slumber then { s with power := { s.power with slotId := v.toNat } } else s
  | none => s

/-- Power, pins and the report of a start at its end: Ready, or stopped in a step (16 R497, R499, R501, R502). -/
def Power.started (x : Power) (us : Nat) (stop : Option (Nat × Nat)) : Power :=
  let step := (match stop with | some (n, _) => n | none => 10)
  let on := decide (3 < step)
  { x with
    phase := if stop.isSome then .stopped else .ready
    readyN := stop.isNone, readyOnce := x.readyOnce || stop.isNone
    bypassOpen := x.bypassOpen || decide (1 < step), isolated := !on
    coreRail := x.coreRail || on, stackRail := x.stackRail || on, dramRail := x.dramRail || on, boardRail := x.boardRail || on
    selfRefresh := x.selfRefresh && decide (step ≤ 6), pstate := if stop.isNone then 1 else 0
    fromSlumber := x.fromSlumber && stop.isSome
    busyAt := [], startStep := if stop.isNone then 0 else step, startDur := if stop.isNone then us else 0
    startFail := (match stop with | some (n, c) => if c = 0 then 0 else n + 256 * c | none => 0) }

/-- When a Hedgerow link came up, in ms since the start: from the beginning where it was never lost, else not before step 1 has ended. -/
def linkTime (stayed : Bool) (t : Option Nat) : Option Nat := if stayed then some 0 else t.filter fun x => decide (40 ≤ x)

/-! ## The course of a start: measurement rounds, sweeps and notices (13 R429, R432; 14 R452, R453; 16 R499, R507) -/

/-- Steps that have ended `us` after the start began. -/
def State.stepsDone (s : State) (k : StartKind) (us : Nat) : Nat := (List.range 9).countP fun i => decide (s.startTime k (some (i + 2, 0)) ≤ us)

/-- What round `i` of a start brings; the last one listed stands for those after it. -/
def roundOf (o : StartIn) (i : Nat) : List Sample × RoundIn := o.rounds.getD i (o.rounds.getLast?.getD ([], {}))

/-- When slot `ch` of a round that began at `t` begins, on the timebase (14 R452). -/
def slotTime (t ch : Nat) : Nat := t + (4000000 * ch / 3 + 39) / 40 * 40

/-- A round within a start, up to a trip (14 R461, R465). No tile has counted beats in it (log 69). -/
def State.startRound (s : State) (x : List Sample × RoundIn) : State :=
  let t := s.hk.roundAt
  let s := (List.range 24).foldl (fun (s : State) ch =>
    if s.hk.thermal = 3 then s else ({ s with ts := slotTime t ch }).converted ch (x.1.getD ch {})) s
  if s.hk.thermal = 3 then s else ({ s with ts := t + 32000000 }).roundOver x.2

/-- The island `t` ms after a start began at `t0`, each 2 ms, until a trip: a round that ends, the by-pass once step 1 has ended, the mesh once step 3 has (from `up` ms), the links,
notices and frames that can leave, a sweep that is due. `view` is the module as a sweep's items find it. -/
def State.startTick (o : StartIn) (a b : Option Nat) (opened : Bool) (view : Nat → State → State) (up t0 : Nat) (s : State) (t : Nat) : State :=
  if s.hk.thermal = 3 then s
  else
    let s := if t % 32 = 0 then ({ s with power := { s.power with isolated := true } }).startRound (roundOf o (t / 32 - 1)) else s
    if s.hk.thermal = 3 then s
    else
      let by_ (l : Option Nat) : Bool := (match l with | some x => decide (x ≤ t) | none => false)
      let s := { s with
        ts := t0 + 1000000 * t, power := { s.power with bypassOpen := opened || decide (40 ≤ t), isolated := decide (t < up) }
        hr := { s.hr with inUp := by_ a, outUp := by_ b } }
      let s := ((s.pumpNotices 64).hrStart false).hrStart true
      if t % 10 = 0 then s.sweepDue fun s => (view t s).sweepPayload else s

/-- The module `t` ms into a start, as its sweep reads it: the island as it is, the die after the steps that have ended. -/
def State.startView (s s1 : State) (k : StartKind) (o : StartIn) (t : Nat) (m : State) : State :=
  if m.power.isolated then m
  else { s1.startDie k o (s.stepsDone k (1000 * t)) with power := m.power, hk := m.hk, hr := m.hr, log := m.log, ts := m.ts }

/-- The island through a start of `us` microseconds, from what step 1 makes of it. -/
def State.startLine (s s1 : State) (k : StartKind) (o : StartIn) (us : Nat) : State :=
  ((List.range (us / 2000)).map fun i => 2 * (i + 1)).foldl
    (State.startTick o (linkTime s1.hr.inUp o.linkIn) (linkTime s1.hr.outUp o.linkOut) s1.power.bypassOpen (s.startView s1 k o)
      (s.startTime k (some (4, 0)) / 1000) s1.ts) s1

/-- Power, pins and reports when a start has run to Ready, or to the step that stops it; `m` is the island through the start. -/
def Power.after (x : Power) (k : StartKind) (o : StartIn) (us : Nat) (stop : Option (Nat × Nat)) (m : Power) : Power :=
  { ({ x with readyOnce := x.readyOnce && !k.cold, coldNext := x.coldNext && !k.cold, fromSlumber := k.slumber }.counted k.cold (lostParams o) 0).started us stop with
    overtempN := m.overtempN, pwmReleased := m.pwmReleased }

/-- A start runs to Ready, or to the step that stops it, or until a trip takes the module to Slumber (14 R461, log 69). -/
def State.runStart (s : State) (cold : Bool) (o : StartIn) : State :=
  let k := s.startKind cold
  let s := s.commitServed.sampleStraps k o
  let s1 := s.startStep1 k o
  let m := s.startLine s1 k o (s.startTime k (startStops o cold))
  let trip := m.hk.thermal == 3
  let us := if trip then (m.ts - s1.ts) / 1000 else s.startTime k (startStops o cold)
  let stop := if trip then some (min 9 (s.stepsDone k us + 1), 0) else startStops o cold
  let s' := s1.startDie k o (match stop with | some (n, _) => n - 1 | none => 9)
  let x := { s.power.after k o us stop m.power with paramWrites := s'.power.paramWrites }
  let ts := if trip then m.ts else s1.ts + 1000 * us
  let log := ((m.log.intake.drop s1.log.intake.length).filter (·.source == 0x90)).foldl Log.take s'.log
  let s' := ({ s' with power := x, hr := m.hr, outbox := m.outbox, log := log, ts := ts }).spillHeld
  let s' := { s' with power := x, hk := m.hk, ts := ts }
  if trip then s'.enterSlumber else s'

def execColdStart (o : StartIn) (s : State) : Host.Outcome State Fault Refusal :=
  s.timed (if s.power.on && s.power.phase == .cold then s.runStart true o else s)

/-- WARM_START: one that finds the retention store damaged becomes a cold start (16 R496). -/
def execWarmStart (o : StartIn) (s : State) : Host.Outcome State Fault Refusal :=
  s.timed (if s.power.on && s.power.phase == .warm then s.runStart o.storeBad o else s)

end Sys2Proof.Machine
end

