-- ==== Sys2Proof/Machine/Dispatch.lean ====
section
/-!
DEFINITION. The dispatch of the commands: one arm per constructor of `Instr`, in the order of spec/opcode_table.json.
-/

namespace Sys2Proof.Machine

/-- The effect of a command on everything but the queue. -/
def exec (i : Instr) (s : State) : Host.Outcome State Fault Refusal :=
  match i with
  | .powerApplied mv straps => Sys2Proof.Machine.execPowerApplied mv straps s
  | .inputLowExcursion mv us => Sys2Proof.Machine.execInputLowExcursion mv us s
  | .inputLockout tooHigh => Sys2Proof.Machine.execInputLockout tooHigh s
  | .alwaysOnRailLoss => Sys2Proof.Machine.execAlwaysOnRailLoss s
  | .pwrPresOpen => Sys2Proof.Machine.execPwrPresOpen s
  | .pwrPresClose straps => Sys2Proof.Machine.execPwrPresClose straps s
  | .moduleReset ns taken => Sys2Proof.Machine.execModuleReset ns taken s
  | .moduleResetRelease straps => Sys2Proof.Machine.execModuleResetRelease straps s
  | .coldStart o => Sys2Proof.Machine.execColdStart o s
  | .warmStart o => Sys2Proof.Machine.execWarmStart o s
  | .hedgerowLinkUp up => Sys2Proof.Machine.execHedgerowLinkUp up s
  | .hedgerowLinkDown up => Sys2Proof.Machine.execHedgerowLinkDown up s
  | .corePowerGoodLoss => Sys2Proof.Machine.execCorePowerGoodLoss s
  | .regulatorFault rail status => Sys2Proof.Machine.execRegulatorFault rail status s
  | .timebaseTick => Sys2Proof.Machine.execTimebaseTick s
  | .channelConversion ch x => Sys2Proof.Machine.execChannelConversion ch x s
  | .measurementRoundEnd r => Sys2Proof.Machine.execMeasurementRoundEnd r s
  | .idleEnter => Sys2Proof.Machine.execIdleEnter s
  | .privetDozeEnter k => Sys2Proof.Machine.execPrivetDozeEnter k s
  | .privetDozeExit k => Sys2Proof.Machine.execPrivetDozeExit k s
  | .kernelBeat t errs => Sys2Proof.Machine.execKernelBeat t errs s
  | .holdLimitExpire t => Sys2Proof.Machine.execHoldLimitExpire t s
  | .bcastFifoPop t errs => Sys2Proof.Machine.execBcastFifoPop t errs s
  | .engineCommandPush t e c bad => Sys2Proof.Machine.execEngineCommandPush t e c bad s
  | .descriptorArrive t e idx => Sys2Proof.Machine.execDescriptorArrive t e idx s
  | .openingCommand t => Sys2Proof.Machine.execOpeningCommand t s
  | .loopCountWrite t e => Sys2Proof.Machine.execLoopCountWrite t e s
  | .loop t e => Sys2Proof.Machine.execLoop t e s
  | .endEngine t e => Sys2Proof.Machine.execEndEngine t e s
  | .tload t => Sys2Proof.Machine.execTload t s
  | .tswap t => Sys2Proof.Machine.execTswap t s
  | .tmul t => Sys2Proof.Machine.execTmul t s
  | .tzero t => Sys2Proof.Machine.execTzero t s
  | .tstore t => Sys2Proof.Machine.execTstore t s
  | .vload t => Sys2Proof.Machine.execVload t s
  | .vstore t => Sys2Proof.Machine.execVstore t s
  | .vadd t => Sys2Proof.Machine.execVadd t s
  | .vmul t => Sys2Proof.Machine.execVmul t s
  | .vfma t => Sys2Proof.Machine.execVfma t s
  | .vmax t => Sys2Proof.Machine.execVmax t s
  | .vmin t => Sys2Proof.Machine.execVmin t s
  | .vcmp t => Sys2Proof.Machine.execVcmp t s
  | .vsel t => Sys2Proof.Machine.execVsel t s
  | .vcvt t => Sys2Proof.Machine.execVcvt t s
  | .vscale t => Sys2Proof.Machine.execVscale t s
  | .vreduce t => Sys2Proof.Machine.execVreduce t s
  | .vexp t => Sys2Proof.Machine.execVexp t s
  | .vrcp t => Sys2Proof.Machine.execVrcp t s
  | .vrsqrt t => Sys2Proof.Machine.execVrsqrt t s
  | .vsilu t => Sys2Proof.Machine.execVsilu t s
  | .glocal t => Sys2Proof.Machine.execGlocal t s
  | .gremote t => Sys2Proof.Machine.execGremote t s
  | .scatter t => Sys2Proof.Machine.execScatter t s
  | .scatterAdd t => Sys2Proof.Machine.execScatterAdd t s
  | .dlocal t => Sys2Proof.Machine.execDlocal t s
  | .dout t => Sys2Proof.Machine.execDout t s
  | .din t => Sys2Proof.Machine.execDin t s
  | .releaseInject t op => Sys2Proof.Machine.execReleaseInject t op s
  | .inboundGrainLand t g => Sys2Proof.Machine.execInboundGrainLand t g s
  | .kernelEnd t => Sys2Proof.Machine.execKernelEnd t s
  | .kernelComplete launch => Sys2Proof.Machine.execKernelComplete launch s
  | .coreLoad t errs => Sys2Proof.Machine.execCoreLoad t errs s
  | .coreStore t errs => Sys2Proof.Machine.execCoreStore t errs s
  | .coreAmo t errs => Sys2Proof.Machine.execCoreAmo t errs s
  | .coreLr t errs => Sys2Proof.Machine.execCoreLr t errs s
  | .coreSc t errs => Sys2Proof.Machine.execCoreSc t errs s
  | .coreFence t errs => Sys2Proof.Machine.execCoreFence t errs s
  | .fenceTso t errs => Sys2Proof.Machine.execFenceTso t errs s
  | .fenceI t errs => Sys2Proof.Machine.execFenceI t errs s
  | .wfi t errs => Sys2Proof.Machine.execWfi t errs s
  | .syncscopeWrite t errs => Sys2Proof.Machine.execSyncscopeWrite t errs s
  | .coreInstruction t errs => Sys2Proof.Machine.execCoreInstruction t errs s
  | .coreInterrupt t => Sys2Proof.Machine.execCoreInterrupt t s
  | .coreRun p t => Sys2Proof.Machine.execCoreRun p t s
  | .coreHalt p t => Sys2Proof.Machine.execCoreHalt p t s
  | .cacheInv p t => Sys2Proof.Machine.execCacheInv p t s
  | .tileCntClr p t => Sys2Proof.Machine.execTileCntClr p t s
  | .registerWrite r n v => Sys2Proof.Machine.execRegisterWrite r n v s
  | .rcRegisterRead r n => Sys2Proof.Machine.execRcRegisterRead r n s
  | .cacheFill t txn => Sys2Proof.Machine.execCacheFill t txn s
  | .remotePortGrant t txn => Sys2Proof.Machine.execRemotePortGrant t txn s
  | .arbiterGrant a reqs => Sys2Proof.Machine.execArbiterGrant a reqs s
  | .bucketRefill p => Sys2Proof.Machine.execBucketRefill p s
  | .meshPacketInject ids => Sys2Proof.Machine.execMeshPacketInject ids s
  | .meshPacketArrive txn lost => Sys2Proof.Machine.execMeshPacketArrive txn lost s
  | .launchPacket launch h => Sys2Proof.Machine.execLaunchPacket launch h s
  | .streamFetchReturn txn errs => Sys2Proof.Machine.execStreamFetchReturn txn errs s
  | .broadcastWord h launch bad => Sys2Proof.Machine.execBroadcastWord h launch bad s
  | .homeRead txn u => Sys2Proof.Machine.execHomeRead txn u s
  | .homeWrite txn u => Sys2Proof.Machine.execHomeWrite txn u s
  | .homeAtomic txn u => Sys2Proof.Machine.execHomeAtomic txn u s
  | .scrubGrain k u => Sys2Proof.Machine.execScrubGrain k u s
  | .refresh k pch sid bank => Sys2Proof.Machine.execRefresh k pch sid bank s
  | .pauseEnd u beats => Sys2Proof.Machine.execPauseEnd u beats s
  | .defineRegion p k entry base limit => Sys2Proof.Machine.execDefineRegion p k entry base limit s
  | .removeRegion p k entry base limit => Sys2Proof.Machine.execRemoveRegion p k entry base limit s
  | .resealRegion p k entry base limit => Sys2Proof.Machine.execResealRegion p k entry base limit s
  | .unsealRegion p k entry base limit => Sys2Proof.Machine.execUnsealRegion p k entry base limit s
  | .regionConversionGrain k u => Sys2Proof.Machine.execRegionConversionGrain k u s
  | .blightPage p k page => Sys2Proof.Machine.execBlightPage p k page s
  | .restorePage p k page => Sys2Proof.Machine.execRestorePage p k page s
  | .returnPage p k page => Sys2Proof.Machine.execReturnPage p k page s
  | .stepQuietRaise q => Sys2Proof.Machine.execStepQuietRaise q s
  | .drainOverdue => Sys2Proof.Machine.execDrainOverdue s
  | .stepKernelLaunch => Sys2Proof.Machine.execStepKernelLaunch s
  | .scaleFold => Sys2Proof.Machine.execScaleFold s
  | .privetFaultNotice => Sys2Proof.Machine.execPrivetFaultNotice s
  | .weightPageRestore => Sys2Proof.Machine.execWeightPageRestore s
  | .admitSequence op => Sys2Proof.Machine.execAdmitSequence op s
  | .cancel op => Sys2Proof.Machine.execCancel op s
  | .draft op => Sys2Proof.Machine.execDraft op s
  | .receive op => Sys2Proof.Machine.execReceive op s
  | .pauseSequence op => Sys2Proof.Machine.execPauseSequence op s
  | .resumeSequence op => Sys2Proof.Machine.execResumeSequence op s
  | .query op => Sys2Proof.Machine.execQuery op s
  | .berylWalk q => Sys2Proof.Machine.execBerylWalk q s
  | .nodeInsert q => Sys2Proof.Machine.execNodeInsert q s
  | .extentSpill q => Sys2Proof.Machine.execExtentSpill q s
  | .extentRestore q => Sys2Proof.Machine.execExtentRestore q s
  | .batchDeliver p => Sys2Proof.Machine.execBatchDeliver p s
  | .privetCommandAccept txn bad => Sys2Proof.Machine.execPrivetCommandAccept txn bad s
  | .microProgram u m w => Sys2Proof.Machine.execMicroProgram u m w s
  | .mv u w => Sys2Proof.Machine.execMv u w s
  | .attend u w => Sys2Proof.Machine.execAttend u w s
  | .segred u w => Sys2Proof.Machine.execSegred u w s
  | .privetGather u w => Sys2Proof.Machine.execPrivetGather u w s
  | .member u w => Sys2Proof.Machine.execMember u w s
  | .privetCopy u w => Sys2Proof.Machine.execPrivetCopy u w s
  | .privetCommandComplete u beats => Sys2Proof.Machine.execPrivetCommandComplete u s beats
  | .privetTimeLimit u beats => Sys2Proof.Machine.execPrivetTimeLimit u s beats
  | .unitBufferWrite txn => Sys2Proof.Machine.execUnitBufferWrite txn s
  | .broadcastWindowWrite txn => Sys2Proof.Machine.execBroadcastWindowWrite txn s
  | .unitLoadBegin p u => Sys2Proof.Machine.execUnitLoadBegin p u s
  | .loadGrain txn => Sys2Proof.Machine.execLoadGrain txn s
  | .unitLoadEnd p u => Sys2Proof.Machine.execUnitLoadEnd p u s
  | .storeCrcDone u => Sys2Proof.Machine.execStoreCrcDone u s
  | .unitCntClr p u => Sys2Proof.Machine.execUnitCntClr p u s
  | .abortUnit p u => Sys2Proof.Machine.execAbortUnit p u s
  | .portReset p cause => Sys2Proof.Machine.execPortReset p cause s
  | .perstDeassert p => Sys2Proof.Machine.execPerstDeassert p s
  | .pcieLinkUp p rate width => Sys2Proof.Machine.execPcieLinkUp p rate width s
  | .functionLevelReset p f => Sys2Proof.Machine.execFunctionLevelReset p f s
  | .apertureRead p addr len attrs => Sys2Proof.Machine.execApertureRead p addr len attrs s
  | .apertureWrite p addr data ep attrs => Sys2Proof.Machine.execApertureWrite p addr data ep attrs s
  | .sqTail p f q v => Sys2Proof.Machine.execSqTail p f q v s
  | .cqHead p f q v => Sys2Proof.Machine.execCqHead p f q v s
  | .queueEnable p f q => Sys2Proof.Machine.execQueueEnable p f q s
  | .queueDisable p f q => Sys2Proof.Machine.execQueueDisable p f q s
  | .descriptorFetch q n => Sys2Proof.Machine.execDescriptorFetch q n s
  | .hostReadCompletion id data ok poison bufErr => Sys2Proof.Machine.execHostReadCompletion id data ok poison bufErr s
  | .hostReadTimeout id => Sys2Proof.Machine.execHostReadTimeout id s
  | .nop op => Sys2Proof.Machine.execNop op s
  | .kernel op => Sys2Proof.Machine.execKernel op s
  | .copy op => Sys2Proof.Machine.execCopy op s
  | .copyTensor op => Sys2Proof.Machine.execCopyTensor op s
  | .drain op => Sys2Proof.Machine.execDrain op s
  | .imageLoad op => Sys2Proof.Machine.execImageLoad op s
  | .imageUnload op => Sys2Proof.Machine.execImageUnload op s
  | .completionRecord op => Sys2Proof.Machine.execCompletionRecord op s
  | .msixHoldoffExpire q => Sys2Proof.Machine.execMsixHoldoffExpire q s
  | .queueAssign p f v => Sys2Proof.Machine.execQueueAssign p f v s
  | .partitionReset p f part => Sys2Proof.Machine.execPartitionReset p f part s
  | .partitionResetDone part => Sys2Proof.Machine.execPartitionResetDone part s
  | .releaseStewardship p => Sys2Proof.Machine.execReleaseStewardship p s
  | .claimStewardship p => Sys2Proof.Machine.execClaimStewardship p s
  | .stewardAutoPass => Sys2Proof.Machine.execStewardAutoPass s
  | .mailboxRead p f index sub => Sys2Proof.Machine.execMailboxRead p f index sub s
  | .mailboxWrite p f index sub len => Sys2Proof.Machine.execMailboxWrite p f index sub len s
  | .dictionaryServe err => Sys2Proof.Machine.execDictionaryServe err s
  | .storedWriteDone => Sys2Proof.Machine.execStoredWriteDone s
  | .marchDone m => Sys2Proof.Machine.execMarchDone m s
  | .reportDone => Sys2Proof.Machine.execReportDone s
  | .cblPrsntChange b present => Sys2Proof.Machine.execCblPrsntChange b present s
  | .lossOfSignal b => Sys2Proof.Machine.execLossOfSignal b s
  | .signalDetect b => Sys2Proof.Machine.execSignalDetect b s
  | .trainingTimeout b => Sys2Proof.Machine.execTrainingTimeout b s
  | .ident b lanes ringId n pos port => Sys2Proof.Machine.execIdent b lanes ringId n pos port s
  | .briarFrameReceive b f => Sys2Proof.Machine.execBriarFrameReceive b f s
  | .ackTimeout b => Sys2Proof.Machine.execAckTimeout b s
  | .briarRead b => Sys2Proof.Machine.execBriarRead b s
  | .briarWrite b => Sys2Proof.Machine.execBriarWrite b s
  | .briarCombine b => Sys2Proof.Machine.execBriarCombine b s
  | .briarReadResp b => Sys2Proof.Machine.execBriarReadResp b s
  | .briarAck b => Sys2Proof.Machine.execBriarAck b s
  | .remoteTimeout tag => Sys2Proof.Machine.execRemoteTimeout tag s
  | .lsaSend => Sys2Proof.Machine.execLsaSend s
  | .lsa b => Sys2Proof.Machine.execLsa b s
  | .linkMapExpire pos => Sys2Proof.Machine.execLinkMapExpire pos s
  | .hedgerowFrame up bytes fcsOk room => Sys2Proof.Machine.execHedgerowFrame up bytes fcsOk room s
  | .readReq => Sys2Proof.Machine.execReadReq s
  | .writeReq => Sys2Proof.Machine.execWriteReq s
  | .describeReq => Sys2Proof.Machine.execDescribeReq s
  | .handoverReq => Sys2Proof.Machine.execHandoverReq s
  | .probe => Sys2Proof.Machine.execProbe s
  | .noticeAck => Sys2Proof.Machine.execNoticeAck s
  | .sweep => Sys2Proof.Machine.execSweep s
  | .noticeResend seq => Sys2Proof.Machine.execNoticeResend seq s
  | .eventIntake => Sys2Proof.Machine.execEventIntake s
  | .overvoltageLockoutRelease mv straps => Sys2Proof.Machine.execOvervoltageLockoutRelease mv straps s

end Sys2Proof.Machine
end

