-- ==== Sys2Proof/Safety.lean ====
section
/-!
DEFINITION. What counts as a safe run, in the terms the claims use: the block never stops, the invariants that every state of the module meets,
which commands may touch the always-on island's power and thermal control, and which row an engine's operation belongs to.
-/

namespace Sys2Proof.Machine

/-- The block goes on: its outcome is a next state. -/
def goesOn (o : Host.Outcome State Fault Refusal) : Prop := ∃ t, o = .next t

/-- A command at a state answers a next state, and that state is as `P` says. -/
def answers (c : Instr) (s : State) (P : State → Prop) : Prop := ∃ t, exec c s = .next t ∧ P t

/-! ## Invariants -/

/-- The timestamp is a multiple of 40 ns (02 R60). -/
def State.tsOk (s : State) : Prop := s.ts % 40 = 0

/-- The pins, rails, by-pass and power state go with the module's phase (01 R16 to R38; 14 R466; 16 R502, R503). -/
def Power.ok (x : Power) : Prop :=
  (x.on = false ↔ x.phase = .off) ∧ (x.readyN = true ↔ x.phase = .ready) ∧ x.slotId < 64 ∧
  (x.phase = .ready → x.bypassOpen = true ∧ x.isolated = false ∧ x.coreRail = true ∧ x.stackRail = true ∧ x.dramRail = true ∧
    1 ≤ x.pstate ∧ x.pstate ≤ 3 ∧ x.readyOnce = true ∧ x.selfRefresh = false) ∧
  (x.phase = .slumber → x.pstate = 4 ∧ x.isolated = true ∧ x.coreRail = false ∧ x.stackRail = false ∧ x.selfRefresh = true ∧
    x.fromSlumber = true ∧ x.bypassOpen = true) ∧
  (x.phase = .inReset ∨ x.phase = .off → x.bypassOpen = false ∧ x.overtempN = false) ∧
  (x.phase ≠ .ready → x.phase ≠ .slumber → x.pstate = 0)

/-- Thermal control: the state is one of four, a thermal ceiling is in force in state 2 alone and never below 0.60 V (14 R461, R463), and
no more than the round's 24 slots have passed. -/
def Hk.ok (h : Hk) : Prop :=
  h.thermal ≤ 3 ∧ h.slot ≤ 24 ∧ (h.ceil.isSome = true ↔ h.thermal = 2) ∧ (∀ c, h.ceil = some c → 0x999A ≤ c)

/-- In thermal states 1 to 3 both fans run at 100 % duty (14 R464). -/
def Hk.fansFull (h : Hk) : Prop := h.thermal ≠ 0 → ∀ f, f < 2 → (SMap.get {} h.fans f : Fan).duty = 100

/-! ## Who may touch what -/

/-- The rows that may write power, pins, the start's report or thermal control beyond the power state, the PERST# latch, the count of parameter
writes and the request for defaults: those of the power input, of resets and starts, and of the measurement round. -/
def powerRow (c : Instr) : Bool :=
  match c with
  | .powerApplied .. | .inputLockout .. | .alwaysOnRailLoss | .pwrPresOpen | .pwrPresClose .. | .moduleReset .. | .moduleResetRelease ..
  | .coldStart .. | .warmStart .. | .corePowerGoodLoss | .regulatorFault .. | .channelConversion .. | .measurementRoundEnd ..
  | .overvoltageLockoutRelease .. => true
  | _ => false

/-- The rows that move the timestamp. -/
def clockRow (c : Instr) : Bool :=
  match c with
  | .timebaseTick | .coldStart .. | .warmStart .. => true
  | _ => false

/-! ## Engine operations and their rows (04 R120) -/

/-- The row of an engine's operation in tile `t`. -/
def rowOf (t : TileId) (e : EngId) (op : EngOp) : Instr :=
  match op with
  | .tload .. => .tload t
  | .tswap => .tswap t
  | .tmul .. => .tmul t
  | .tzero => .tzero t
  | .tstore .. => .tstore t
  | .vload .. => .vload t
  | .vstore .. => .vstore t
  | .vec .add .. => .vadd t
  | .vec .mul .. => .vmul t
  | .vec .fma .. => .vfma t
  | .vec .max .. => .vmax t
  | .vec .min .. => .vmin t
  | .vec (.cmp _) .. => .vcmp t
  | .vec .sel .. => .vsel t
  | .vec .exp .. => .vexp t
  | .vec .rcp .. => .vrcp t
  | .vec .rsqrt .. => .vrsqrt t
  | .vec .silu .. => .vsilu t
  | .vec .redSum .. => .vreduce t
  | .vec .redMax .. => .vreduce t
  | .vcvt .. => .vcvt t
  | .vscale .. => .vscale t
  | .glocal .. => .glocal t
  | .gremote .. => .gremote t
  | .scatter none .. => .scatter t
  | .scatter (some _) .. => .scatterAdd t
  | .dlocal .. => .dlocal t
  | .dout .. => .dout t
  | .din .. => .din t
  | .loopCount .. => .loopCountWrite t e
  | .loop .. => .loop t e
  | .fin => .endEngine t e

/-- Does engine `e` carry out an operation: its own, or one of the three that every engine has? -/
def ownOp (e : EngId) (op : EngOp) : Bool :=
  match op with
  | .tload .. | .tswap | .tmul .. | .tzero | .tstore .. => e == 0
  | .vload .. | .vstore .. | .vec .. | .vcvt .. | .vscale .. => e == 1
  | .glocal .. | .gremote .. | .scatter .. => e == 2
  | .dlocal .. | .dout .. | .din .. => e == 3
  | .loopCount .. | .loop .. | .fin => true

/-- Engine `e` of tile `t` is about to issue `q` at Ready. -/
def issues (s : State) (t : TileId) (e : EngId) (q : QCmd) : Prop := s.isReady = true ∧ (s.tile t.val).issuable e = some q

/-- Two tiles hold the same data: scratchpad with its check words, vector registers, accumulators, stationary buffers, each with its poison. -/
def Tile.sameData (x y : Tile) : Prop :=
  x.scratch = y.scratch ∧ x.words = y.words ∧ x.vreg = y.vreg ∧ x.vregPoison = y.vregPoison ∧ x.acc = y.acc ∧
  x.accPoison = y.accPoison ∧ x.active = y.active ∧ x.shadow = y.shadow

/-- Every state field is as it was but for those that the work of one tile may change, and every other tile is as it was. -/
def onlyTile (s u : State) (t : Nat) : Prop :=
  u = { s with
    tiles := u.tiles, tileTags := u.tileTags, txns := u.txns, nextId := u.nextId, log := u.log, totals := u.totals, folds := u.folds, power := u.power } ∧
  ∀ v, v ≠ t → u.tile v = s.tile v

/-- What 05 R160 and R161 say lane code `r` of a lane-wise operation is, on the codes of its source lanes: one rounding of the exact result, the comparison in bit
0, a selection, or the transcendental of the lane in FP32 rounded to the lane's format. -/
def laneSays (op : VOp) (half : Bool) (a b c r : Nat) : Prop :=
  let f := laneFp half
  match op with
  | .add => r = (f.roundIeee false ((f.decode a).add (f.decode b))).1
  | .mul => r = (f.roundIeee false ((f.decode a).mul (f.decode b))).1
  | .fma => r = (f.roundIeee false (((f.decode a).mul (f.decode b)).add (f.decode c))).1
  | .max => r = (f.roundIeee false ((f.decode a).max (f.decode b))).1
  | .min => r = (f.roundIeee false ((f.decode a).min (f.decode b))).1
  | .cmp rel => (r % 2 = 1 ↔ relHolds rel (f.decode a) (f.decode b) = true)
  | .sel => r = if a % 2 = 1 then b else c
  | .exp => r = toLane half (f32Exp (fromLane half a))
  | .rcp => r = toLane half (f32Rcp (fromLane half a))
  | .rsqrt => r = toLane half (f32Rsqrt (fromLane half a))
  | .silu => r = toLane half (f32Silu (fromLane half a))
  | .redSum | .redMax => True

/-! ## The control core (03 R99 to R102) -/

/-- The core of tile `t` runs, and the instruction at its pc, of `len` bytes, is `i`; the words of instruction memory it is fetched from are clean. -/
def fetches (s : State) (t : Nat) (i : Rv) (len : Nat) : Prop :=
  s.isReady = true ∧ s.drain.heldMarch = false ∧ (s.core t).halted = false ∧ (s.core t).pc + len ≤ 0x10000 ∧ (s.core t).pc % 2 = 0 ∧
  SMap.get 0 (s.core t).imemErr ((s.core t).pc / 4) = 0 ∧ SMap.get 0 (s.core t).imemErr ((s.core t).pc / 4 + 1) = 0 ∧
  ((len = 4 ∧ leNat ((s.core t).imem.read (s.core t).pc 2) % 4 = 3 ∧ i = decode32 (leNat ((s.core t).imem.read (s.core t).pc 4))) ∨
   (len = 2 ∧ leNat ((s.core t).imem.read (s.core t).pc 2) % 4 ≠ 3 ∧ i = decode16 (leNat ((s.core t).imem.read (s.core t).pc 2))))

/-- The core after an instruction of `len` bytes that writes `v` to register `rd`. -/
def CoreSt.next (c : CoreSt) (rd v len : Nat) : CoreSt := { c.setReg rd v with pc := (c.pc + len) % 2 ^ 32, wfi := false }

/-- The core after an instruction of `len` bytes that writes no register. -/
def CoreSt.skip (c : CoreSt) (len : Nat) : CoreSt := { c with pc := (c.pc + len) % 2 ^ 32, wfi := false }

/-- `u` is `s` but for the core of tile `t`: no data of the tile, no engine, no other tile, no access in flight changes. -/
def onlyCore (s u : State) (t : Nat) : Prop :=
  onlyTile s u t ∧ (u.tile t).sameData (s.tile t) ∧ (u.tile t).eng = (s.tile t).eng ∧ (u.tile t).kern = (s.tile t).kern ∧
  (u.tile t).sched = (s.tile t).sched ∧ (u.tile t).fifo = (s.tile t).fifo ∧ u.txns = s.txns

/-! ## Memory -/

/-- No tile's data and no byte of a memory tier differs between two states. -/
def sameMemory (s u : State) : Prop := (∀ t, (u.tile t).sameData (s.tile t)) ∧ ∀ k a, (u.tier k).byte a = (s.tier k).byte a

/-- No tier has a page in conversion: no access waits for one (07 R221). -/
def State.noConv (s : State) : Prop := ∀ k, (s.tier k).conv = none

/-- What a command has made of a state waits for nothing: every scratchpad access that it needs has been performed for it (03 R94; log 110). -/
def State.noWait (s s' : State) : Prop := s'.blocked = s.blocked

/-- No bucket of partition `p` holds anything up: each has tokens, or its regulator is off (07 R239). -/
def State.allPaid (s : State) (p : Nat) : Prop := ∀ b, s.paid p b = true

/-- No operation is cancelled, repeated, reordered or begun, and no data of theirs changed: the parts of the state that hold work are as they were, but for the tiles' counters (02 R58). -/
def State.sameWork (s t : State) : Prop :=
  (∀ v, { t.tile v with ctl := (s.tile v).ctl } = s.tile v) ∧ t.txns = s.txns ∧ t.nextId = s.nextId ∧ t.tiers = s.tiers ∧ t.units = s.units ∧ t.hedges = s.hedges ∧ t.launches = s.launches ∧
  t.launchPkts = s.launchPkts ∧ t.notices = s.notices ∧ t.folds = s.folds ∧ t.unitNotices = s.unitNotices ∧ t.laurel = s.laurel ∧ t.drain = s.drain ∧ t.ops = s.ops ∧
  t.queues = s.queues ∧ t.hostReads = s.hostReads ∧ t.briar = s.briar ∧ t.arbs = s.arbs ∧ t.march = s.march ∧ t.ts = s.ts

/-- No measurement round of a start meets a trip: every valid reading of a temperature channel lies below the threshold in force once the start's first step has read the
entries (14 R461). -/
def State.startsCool (s : State) (cold : Bool) (o : StartIn) : Prop :=
  ∀ i ch, ch < 20 → (convertChan ch ((roundOf o i).1.getD ch {})).1 = 0 →
    sext 32 (convertChan ch ((roundOf o i).1.getD ch {})).2 <
      ((s.commitServed.sampleStraps (s.startKind cold) o).startStep1 (s.startKind cold) o).tripAt ch

/-- Every regulator of partition `p` is off (07 R238). -/
def State.regsOff (s : State) (p : Nat) : Prop := ∀ b, s.regOn p b = false

/-- The state as Laurel's own blocks work in it for a partition (07 R237). -/
def State.workingFor (s : State) (part : Nat) : State := { s with acct := { s.acct with part := some part } }

/-- Grain `g` of tier `k` lies in a Sealed page in service, and both of its protected words are as written (07 R211, R217, R231). -/
def soundGrain (s : State) (k g : Nat) : Prop :=
  (s.tier k).mode k (pageOf (64 * g)) = .sealed ∧ (s.tier k).page (pageOf (64 * g)) = 0 ∧
  (s.tier k).word k (2 * g) = { mode := .sealed } ∧ (s.tier k).word k (2 * g + 1) = { mode := .sealed }

/-- The eight words of grain `g` of a scratchpad are clean (03 R88). -/
def Tile.cleanGrain (x : Tile) (g : Nat) : Prop := ∀ i, i < 8 → SMap.get 0 x.words (8 * g + i) = 0

/-- Access `id` has been performed and answered: with `data`, `status`, on its way back to its agent. -/
def answeredWith (u : State) (id : Nat) (data : Piece) (status : Nat) : Prop :=
  ∃ y ∈ u.txns, y.id = id ∧ y.stage = .responding ∧ y.data = data ∧ y.status = status

/-- Operation `op`, which was `o` at `s`, has ended with a status and a fault code or reason, behind all those of the queues that ended before it. -/
def endedAs (s u : State) (op : Nat) (o : HostOp) (status fault : Nat) : Prop :=
  u.op? op = some (s.stamp o { o with stage := .done, status := status, fault := fault, detail := 0 })

/-! ## Hedgerow (13 R423) -/

/-- Nothing waits to leave by Hedgerow, and both lines are idle (13 R424). -/
def State.linesIdle (s : State) : Prop := ∀ up, (s.hrLine up).free ≤ s.ts ∧ (s.hrLine up).transit = [] ∧ (s.hrLine up).own = []

/-- Both copies of a frame of this module's own have left: downstream by HR_OUT, upstream by HR_IN, and nothing else. -/
def sentBoth (s t : State) (f : HFrame) : Prop :=
  t.outbox = .hedgerow true (onWire (f.bytes true) true) :: .hedgerow false (onWire (f.bytes false) true) :: s.outbox

end Sys2Proof.Machine
end

