-- ==== Sys2Proof/Certificates/Slice0/Obligations.lean ====
section
/-!
DEFINITION. The statements for the provers. `answers c s P` says that command `c` at state `s` answers a next state, one that `P` holds of.
-/

open Sys2Proof Sys2Proof.Machine

/-! ## The machine -/

/-- A step runs the command at the front of the queue with the queue's rest; with an empty queue the block idles (log 19). -/
def Obligations.StepRunsFrontCommand : Prop :=
  (∀ (c : Instr) (r : List Instr) (s : State), step { s with pending := c :: r } = exec c { s with pending := r }) ∧
  (∀ s : State, s.pending = [] → step s = .next s)

/-- Every command has its effect: none ends in a fault or a refusal, and none touches what waits in the queue. -/
def Obligations.EveryCommandGoesOn : Prop :=
  ∀ (c : Instr) (s : State), answers c s fun t => t.pending = s.pending

/-- Only a tick of the timebase and a start move the timestamp: no other command takes time (log 4).

The timestamp never falls but at a cold start, which begins it anew (02 R60, 15 R494). A warm start that finds the retention store damaged is a cold
one (16 R496).

The timebase and Hedgerow's links: a tick adds 40 ns while the always-on rail is good, and changes nothing else but that a Hedgerow pair may begin a frame that waits; a link's
state follows its row, and what waited for a link that goes down does not leave. -/
def Obligations.ClockAndLinksMove : Prop :=
  (∀ (c : Instr) (s : State), clockRow c = false → answers c s fun t => t.ts = s.ts) ∧
  (∀ (c : Instr) (s t : State), exec c s = .next t → (∀ o, c ≠ .coldStart o) → (∀ o, c = .warmStart o → o.storeBad = false) → s.ts ≤ t.ts) ∧
  (∀ s : State,
    answers .timebaseTick s (fun t => t = { s with ts := if s.power.on then s.ts + 40 else s.ts, hr := t.hr, outbox := t.outbox } ∧
      ((∀ up, (s.hrLine up).transit = [] ∧ (s.hrLine up).own = []) → t = { s with ts := if s.power.on then s.ts + 40 else s.ts })) ∧
    (s.power.on = true → s.power.bypassOpen = true → ∀ up, answers (.hedgerowLinkUp up) s fun t =>
      (if up then t.hr.inUp = true ∧ t.hr.outUp = s.hr.outUp else t.hr.outUp = true ∧ t.hr.inUp = s.hr.inUp)) ∧
    (∀ up, answers (.hedgerowLinkDown up) s fun t =>
      t = { s with hr := if up then { s.hr with inUp := false, lineUp := {} } else { s.hr with outUp := false, lineDown := {} } }))

/-- The timestamp stays a multiple of 40 ns, whatever step is taken (02 R60: it advances by 40). -/
def Obligations.ClockGrainInvariant : Prop :=
  ∀ s t : State, s.tsOk → step s = .next t → t.tsOk

/-- Every step keeps the pins, rails, by-pass and power state in agreement with the module's phase (01 R16 to R38, 14 R466, 16 R502, R503). -/
def Obligations.PowerPhaseInvariant : Prop :=
  ∀ s t : State, s.power.ok → step s = .next t → t.power.ok

/-- Every step keeps the thermal state, its ceiling and the measurement slot in range (14 R452, R461, R463). -/
def Obligations.ThermalCeilingInvariant : Prop :=
  ∀ s t : State, s.hk.ok → step s = .next t → t.hk.ok

/-- In thermal states 1, 2 and 3 both fans run at 100 % duty, whatever their mode: it holds after reset, and every step keeps it. -/
def Obligations.FansFullWhileHotInvariant : Prop :=
  State.reset.hk.fansFull ∧ ∀ s t : State, s.hk.fansFull → step s = .next t → t.hk.fansFull

/-- The state after reset meets the four invariants, has an empty queue, and stands at Ready with the START record of a cold start in its log (16 R499,
15 R491; that reset is taken at Ready is the model's choice, log 4). -/
def Obligations.ResetMeetsInvariants : Prop :=
  State.reset.tsOk ∧ State.reset.power.ok ∧ State.reset.hk.ok ∧ State.reset.hk.fansFull ∧ State.reset.pending = [] ∧
  State.reset.isReady = true ∧ State.reset.log.records.map (fun r => (r.seq, r.ev.code, r.ev.args)) = [(1, 0x01, [1, 0, 0])]

/-- Isolation of the always-on island: a command outside the rows of power, resets, starts and measurement leaves the thermal control block as it was, but that the completion of a
Stored write may change the fans' duties (13 R439, R447), and of power and pins changes at most the power state with the times it goes by, the PERST# latch, the count of parameter writes and the request for defaults. -/
def Obligations.IslandPowerFrame : Prop :=
  ∀ (c : Instr) (s : State), powerRow c = false → answers c s fun t =>
    t.hk = { s.hk with fans := t.hk.fans } ∧ (c ≠ .storedWriteDone → t.hk = s.hk) ∧
    t.power = { s.power with
      pstate := t.power.pstate, busyAt := t.power.busyAt, perst := t.power.perst, paramWrites := t.power.paramWrites
      defaultsAtStart := t.power.defaultsAtStart }

/-! ## Engines (04 R113 to R128, 05 R151 to R162, 06 R189 to R200) -/

/-- Whatever an engine issues: its next command is due exactly `span` beats later, its kernel's beat and every register, accumulator and byte of the tile's
scratchpad are as they were (results land later), the other engines, the other tiles and the rest of the module are untouched. The frame of the 27
operation rows and of LOOP_COUNT_WRITE, LOOP and END. -/
def Obligations.EngineIssueFrame : Prop :=
  ∀ (s : State) (t : TileId) (e : EngId) (q : QCmd), issues s t e q → ownOp e q.cmd.op = true →
    answers (rowOf t e q.cmd.op) s fun u =>
      onlyTile s u t.val ∧ (u.tile t.val).sameData (s.tile t.val) ∧
      ((u.tile t.val).engine e).next = (s.tile t.val).sched.kbeat + max 1 q.cmd.span ∧
      (u.tile t.val).sched.kbeat = (s.tile t.val).sched.kbeat ∧ (u.tile t.val).sched.tally = (s.tile t.val).sched.tally ∧
      (u.tile t.val).core = (s.tile t.val).core ∧ (u.tile t.val).fifo = (s.tile t.val).fifo ∧
      ∀ f, f ≠ e → (u.tile t.val).engine f = (s.tile t.val).engine f

/-- What the tensor engine's five rows schedule from issue beat k: TLOAD reads grain j at k + j and is complete in the shadow buffer at k + G + 1; TMUL reads
row m at k + e(m); TSTORE reads row j at k + j; TSWAP and TZERO land at k + 1.

A tensor-engine address has its low six bits treated as zero; where any is set the tile's MISALIGNED counter increments, once for each address of the command, and no fault is
raised: TLOAD, TMUL and TSTORE schedule from the aligned address, the kernel's fault and TILE_FAULT stay as they are. -/
def Obligations.TensorOpsScheduledAligned : Prop :=
  (∀ (s : State) (t : TileId) (q : QCmd) (x : Tile) (k : Nat) (idx : List Nat), issues s t 0 q →
    x = s.tile t.val → k = x.sched.kbeat → idx = (x.engine 0).indices →
    (∀ f src sc a b, q.cmd.op = .tload f src sc a b → answers (.tload t) s fun u =>
      (u.tile t.val).reads = x.reads ++
        ((List.range (tloadGrains f.val)).map fun j => (⟨k + j, 0, q.idx, x.nextOp, .tload, j, locOf src idx / 64 * 64 + 64 * j, 64, 0, a⟩ : SRead)) ++
        (if isMx f.val then
          (List.range 2).map fun j => (⟨k + j, 0, q.idx, x.nextOp, .tloadScale, j, locOf sc idx / 64 * 64 + 64 * j, 64, 0, b⟩ : SRead) else []) ∧
      (u.tile t.val).lands = x.lands ++ [⟨k + tloadGrains f.val + 1, k, .shadow x.nextOp⟩] ∧
      (u.tile t.val).tloadOk = k + tloadGrains f.val) ∧
    (q.cmd.op = .tswap → answers (.tswap t) s fun u => (u.tile t.val).lands = x.lands ++ [⟨k + 1, k, .swap⟩]) ∧
    (∀ m st rows src sc e1 e2 z1 z2 a b c, q.cmd.op = .tmul m st rows src sc e1 e2 z1 z2 a b c → answers (.tmul t) s fun u =>
      (u.tile t.val).reads = x.reads ++
        (if isMx m.val then (List.range (cdiv (min rows 64) 32)).map fun j =>
          (⟨k + rowBeat m.val (32 * j), 0, q.idx, x.nextOp, .tmulScale, j, locOf sc idx / 64 * 64 + 64 * j, 64, 0, b⟩ : SRead) else []) ++
        ((List.range (min rows 64)).map fun r =>
          (⟨k + rowBeat m.val r, 0, q.idx, x.nextOp, .tmul, r, locOf src idx / 64 * 64 + rowBytes m.val * r, rowBytes m.val, 0, a⟩ : SRead)) ∧
      (u.tile t.val).lands = x.lands ∧ (u.tile t.val).writes = x.writes) ∧
    (q.cmd.op = .tzero → answers (.tzero t) s fun u => (u.tile t.val).lands = x.lands ++ [⟨k + 1, k, .accZero⟩]) ∧
    (∀ rows dst i f rz ex sl cl mu zo n, q.cmd.op = .tstore rows dst i f rz ex sl cl mu zo n → answers (.tstore t) s fun u =>
      (u.tile t.val).reads = x.reads ++ ((List.range (min rows 64)).map fun j => (⟨k + j, 0, q.idx, x.nextOp, .acc, j, 0, 0, 0, n⟩ : SRead)) ∧
      (0 < rows → ∃ o, (u.tile t.val).ops = x.ops ++ [o] ∧ o.id = x.nextOp ∧ o.op = q.cmd.op ∧ o.issue = k ∧ o.bases = [locOf dst idx / 64 * 64]))) ∧
  (∀ (s : State) (t : TileId) (q : QCmd) (x : Tile) (n : Nat) (src sc : Addr), issues s t 0 q → x = s.tile t.val → x.count cMisaligned < 2 ^ 32 →
    ((∃ f a b, q.cmd.op = .tload f src sc a b ∧ n = b2n (decide (locOf src (x.engine 0).indices % 64 ≠ 0)) +
        (if isMx f.val then b2n (decide (locOf sc (x.engine 0).indices % 64 ≠ 0)) else 0)) ∨
      (∃ m st rows e1 e2 z1 z2 a b c, q.cmd.op = .tmul m st rows src sc e1 e2 z1 z2 a b c ∧ 0 < rows ∧ n = b2n (decide (locOf src (x.engine 0).indices % 64 ≠ 0)) +
        (if isMx m.val then b2n (decide (locOf sc (x.engine 0).indices % 64 ≠ 0)) else 0)) ∨
      (∃ rows i f rz ex sl cl mu zo a, q.cmd.op = .tstore rows src i f rz ex sl cl mu zo a ∧ 0 < rows ∧ n = b2n (decide (locOf src (x.engine 0).indices % 64 ≠ 0)))) →
    answers (rowOf t 0 q.cmd.op) s fun u =>
      (u.tile t.val).count cMisaligned = satAdd 32 (x.count cMisaligned) n ∧ (u.tile t.val).ctl.fault = x.ctl.fault ∧ (u.tile t.val).kern.fault = x.kern.fault)

/-- Of the vector engine: VLOAD reads its source at k and VSTORE's bytes land at k + 2, each grain with its register's poison; VCVT's register lands at k + 5
and VSCALE's at k + 6, its clips added to the kernel's count. -/
def Obligations.VectorMovesScheduled : Prop :=
  ∀ (s : State) (t : TileId) (q : QCmd) (x : Tile) (k : Nat) (idx : List Nat), issues s t 1 q →
    x = s.tile t.val → k = x.sched.kbeat → idx = (x.engine 1).indices →
    (∀ rd off len src n, q.cmd.op = .vload rd off len src n → answers (.vload t) s fun u =>
      (u.tile t.val).reads = x.reads ++
        (if min len (512 - off) = 0 then [] else [⟨k, 1, q.idx, x.nextOp, .vload, 0, locOf src idx, min len (512 - off), off, n⟩])) ∧
    (∀ rs off len dst n, q.cmd.op = .vstore rs off len dst n → answers (.vstore t) s fun u =>
      (u.tile t.val).writes = x.writes ++ (spanCuts off (min len (512 - off))).map fun p =>
        (⟨k + 2, k, 1, locOf dst idx + p.1, ⟨((x.vbytes rs.val).drop (off + p.1)).take p.2, x.vpoison rs.val ((off + p.1) / 64)⟩⟩ : SWrite)) ∧
    (∀ rd ra sf df se sz de rz cl sl n, q.cmd.op = .vcvt rd ra sf df se sz de rz cl sl n → answers (.vcvt t) s fun u =>
      ∃ bytes flags, (u.tile t.val).lands = x.lands ++ [⟨k + 5, k, .vreg rd.val 0 bytes flags⟩] ∧ bytes.length = 512 ∧ flags.length = 8 ∧
        bytes.take (cvtLanes sf.val df.val * elemBits df.val / 8) =
          (packCodes df.val (narrowAll df.val rz (targetExp df.val de sl.isSome) 0
            (cvtSource sf.val se sz (cvtLanes sf.val df.val) (x.vbytes ra.val) ((List.range 8).map fun g => x.vpoison ra.val g))).codes).take
            (cvtLanes sf.val df.val * elemBits df.val / 8)) ∧
    (∀ rd ra h f rz n, q.cmd.op = .vscale rd ra h f rz n → answers (.vscale t) s fun u =>
      ∃ r, r = scaleResult h f.val rz (x.vbytes ra.val) ((List.range 8).map fun g => x.vpoison ra.val g) ∧
        (u.tile t.val).lands = x.lands ++ [⟨k + 6, k, .vreg rd.val 0 r.1 r.2.1⟩] ∧ (u.tile t.val).kern.mxClip = x.kern.mxClip + r.2.2)

/-- The eleven lane-wise rows of the vector engine, in both lane widths: the register that lands after the operation's latency holds in every lane of an unpoisoned
grain the operation's result on the source lanes, rounded once, and a grain is poisoned exactly when a source grain it reads is. VEXP, VRCP, VRSQRT and VSILU hold for every
value within their bound (log 3); of VCMP's pattern only bit 0 is fixed (log 14).

VREDUCE lands at k + 9 in lane 0: the pairwise tree sum of the lanes, or their maximum, where no source grain is poisoned; poisoned if any source grain is. -/
def Obligations.LaneAndReduceOpsLand : Prop :=
  (∀ (s : State) (t : TileId) (q : QCmd) (x : Tile) (k : Nat) (op : VOp) (h : Bool) (rd ra rb rc : Fin 32) (na nb nc : Bool), issues s t 1 q →
    x = s.tile t.val → k = x.sched.kbeat → q.cmd.op = .vec op h rd ra rb rc na nb nc → op ≠ .redSum → op ≠ .redMax →
    answers (rowOf t 1 q.cmd.op) s fun u =>
      ∃ bytes flags, (u.tile t.val).lands = x.lands ++ [⟨k + vecLatency op, k, .vreg rd.val 0 bytes flags⟩] ∧ bytes.length = 512 ∧
        (∀ i, i < laneCount h → flags.getD (laneBytes h * i / 64) false = false → ∃ r, (bytes.drop (laneBytes h * i)).take (laneBytes h) = leBytes (laneBytes h) r ∧
          laneSays op h ((lanes h (x.vbytes ra.val)).getD i 0) ((lanes h (x.vbytes rb.val)).getD i 0) ((lanes h (x.vbytes rc.val)).getD i 0) r) ∧
        flags.length = 8 ∧
        ∀ g, g < 8 → flags.getD g false =
          (x.vpoison ra.val g || (decide (2 ≤ vecArity op) && x.vpoison rb.val g) || (decide (3 ≤ vecArity op) && x.vpoison rc.val g))) ∧
  (∀ (s : State) (t : TileId) (q : QCmd) (x : Tile) (k : Nat) (m h : Bool) (rd ra rb rc : Fin 32) (na nb nc : Bool), issues s t 1 q →
    x = s.tile t.val → k = x.sched.kbeat → q.cmd.op = .vec (if m then .redMax else .redSum) h rd ra rb rc na nb nc →
    answers (.vreduce t) s fun u =>
      (∃ bytes, (u.tile t.val).lands = x.lands ++ [⟨k + 9, k, .vreg rd.val 0 bytes [(List.range 8).any fun g => x.vpoison ra.val g]⟩] ∧
        ((∀ g, g < 8 → x.vpoison ra.val g = false) → bytes = leBytes (laneBytes h) (reduce m h (lanes h (x.vbytes ra.val))).1)) ∧
      (∀ l : List Nat, (reduce false false l).1 = treeSum 7 (l.map fun c => (BitVec.ofNat 32 c).toNat)))

/-- GLOCAL, GREMOTE, SCATTER and SCATTER_ADD on a sound table: index grain j is read at k + j; the asynchronous three are recorded with their tally and order and
ask for nothing yet. On a malformed table the operation makes no access and DESC_BAD counts once. -/
def Obligations.GatherOpsScheduled : Prop :=
  ∀ (s : State) (t : TileId) (q : QCmd) (x : Tile) (k : Nat) (idx : List Nat), issues s t 2 q →
    x = s.tile t.val → k = x.sched.kbeat → idx = (x.engine 2).indices →
    (∀ n ia dst tb ni nr d, q.cmd.op = .glocal n ia dst tb ni nr → 0 < n → tableOf s.ring.n q.got = .ok d → d.dims ≠ 0 → d.isLocal = true → rowGrains d = 1 →
      answers (.glocal t) s fun u => (u.tile t.val).reads = x.reads ++ indexReads q x.nextOp k (locOf ia idx / 64 * 64) n ni ∧ u.txns = s.txns) ∧
    (∀ n ia dst tb tl od ni d, q.cmd.op = .gremote n ia dst tb tl od ni → 0 < n → tableOf s.ring.n q.got = .ok d → d.dims ≠ 0 → 0 < rowGrains d →
      rowGrains d ≤ 64 → answers (.gremote t) s fun u => (u.tile t.val).reads = x.reads ++ indexReads q x.nextOp k (locOf ia idx / 64 * 64) n ni ∧
        u.txns = s.txns ∧ ∃ o, (u.tile t.val).ops = x.ops ++ [o] ∧ o.id = x.nextOp ∧ o.tally = some tl ∧ o.ord = od ∧ o.left = indexGrains n) ∧
    (∀ cb n ia src tb tl od ni d, q.cmd.op = .scatter cb n ia src tb tl od ni → 0 < n → tableOf s.ring.n q.got = .ok d → d.dims ≠ 0 →
      (cb.isSome = true → d.fmt = 0) → answers (if cb.isSome then .scatterAdd t else .scatter t) s fun u =>
        (u.tile t.val).reads = x.reads ++ indexReads q x.nextOp k (locOf ia idx / 64 * 64) n ni ∧ u.txns = s.txns ∧
        ∃ o, (u.tile t.val).ops = x.ops ++ [o] ∧ o.id = x.nextOp ∧ o.tally = some tl ∧ o.ord = od ∧ o.left = indexGrains n) ∧
    (∀ n, 0 < n → (∃ ia dst tb ni nr, q.cmd.op = .glocal n ia dst tb ni nr) ∨ (∃ ia dst tb tl od ni, q.cmd.op = .gremote n ia dst tb tl od ni) ∨
        (∃ cb ia src tb tl od ni, q.cmd.op = .scatter cb n ia src tb tl od ni) → tableOf s.ring.n q.got = .bad →
      answers (rowOf t 2 q.cmd.op) s fun u => (u.tile t.val).reads = x.reads ∧ u.txns = s.txns ∧ (u.tile t.val).count cDescBad = satAdd 32 (x.count cDescBad) 1)

/-- DLOCAL and DOUT read grain j at k + j div 4; DIN with a contiguous source asks its home for every piece of its grains at once, and reads nothing of its own
scratchpad; a DOUT or DIN whose descriptor is malformed makes no access. -/
def Obligations.DmaOpsScheduled : Prop :=
  ∀ (s : State) (t : TileId) (q : QCmd) (x : Tile) (k : Nat) (idx : List Nat), issues s t 3 q →
    x = s.tile t.val → k = x.sched.kbeat → idx = (x.engine 3).indices →
    (∀ g src dst n, q.cmd.op = .dlocal g src dst n → answers (.dlocal t) s fun u =>
      (u.tile t.val).reads = x.reads ++ (List.range g).map fun j => (⟨k + j / 4, 3, q.idx, x.nextOp, .move, j, locOf src idx + 64 * j, 64, 0, n⟩ : SRead)) ∧
    (∀ g src a tl rt od n, q.cmd.op = .dout g src (.plain a) tl rt od n → answers (.dout t) s fun u =>
      (u.tile t.val).reads = x.reads ++ ((List.range g).map fun j => (⟨k + j / 4, 3, q.idx, x.nextOp, .out, j, locOf src idx + 64 * j, 64, 0, n⟩ : SRead)) ∧
      u.txns = s.txns ∧ ∃ o, (u.tile t.val).ops = x.ops ++ [o] ∧ o.id = x.nextOp ∧ o.tally = some tl ∧ o.ord = od ∧ o.left = g) ∧
    (∀ g src d w tl rt od n, q.cmd.op = .dout g src (.window d) tl rt od n → 0 < g → windowOf s.ring.n q.got = .ok w → answers (.dout t) s fun u =>
      (u.tile t.val).reads = x.reads ++
        ((List.range (min g w.grains)).map fun j => (⟨k + j / 4, 3, q.idx, x.nextOp, .out, j, locOf src idx + 64 * j, 64, 0, n⟩ : SRead))) ∧
    (∀ g dst a tl od, q.cmd.op = .din g dst (.plain a) tl od → answers (.din t) s fun u =>
      (u.tile t.val).reads = x.reads ∧
      ∃ l : List Txn, u.txns = s.txns ++ l ∧ (∀ y ∈ l, y.agent = .engine t 3 ∧ y.kind = .read ∧ y.stage = .queued) ∧
        l.map (fun y => (y.dest, y.len, y.purpose)) = (List.range g).flatMap fun j => (spanCuts (dieOf a idx + 64 * j) 64).map fun p =>
          ((⟨none, (dieOf a idx + 64 * j + p.1) % 2 ^ 64⟩ : FarAddr), p.2, TxFor.inbound t x.nextOp [(j, p.1)])) ∧
    (∀ g dst d w tl od, q.cmd.op = .din g dst (.window d) tl od → 0 < g → windowOf s.ring.n q.got = .ok w → answers (.din t) s fun u =>
      (u.tile t.val).reads = x.reads ∧ ∃ o ∈ (u.tile t.val).ops, o.id = x.nextOp ∧ o.tally = some tl ∧ o.grains.length = g) ∧
    (∀ d, (∃ g src tl rt od n, 0 < g ∧ q.cmd.op = .dout g src (.window d) tl rt od n) ∨ (∃ g dst tl od, 0 < g ∧ q.cmd.op = .din g dst (.window d) tl od) →
      windowOf s.ring.n q.got = .bad → answers (rowOf t 3 q.cmd.op) s fun u =>
        (u.tile t.val).reads = x.reads ∧ u.txns = s.txns ∧ (u.tile t.val).count cDescBad = satAdd 32 (x.count cDescBad) 1)

/-- The three rows that every engine has: a loop count is written; LOOP enters its body with the count latched, or skips it where the count or the body is empty;
END takes the engine out of the kernel's remaining work. -/
def Obligations.LoopRowsAct : Prop :=
  ∀ (s : State) (t : TileId) (e : EngId) (q : QCmd) (x : Engine), issues s t e q → x = (s.tile t.val).engine e →
    (∀ r v, q.cmd.op = .loopCount r v → answers (.loopCountWrite t e) s fun u => SMap.get 0 ((u.tile t.val).engine e).counts r.val = v.toNat) ∧
    (∀ r b, q.cmd.op = .loop r b → answers (.loop t e) s fun u =>
      ((u.tile t.val).engine e).counts = x.counts ∧
      (x.frames = [] → SMap.get 0 x.counts r.val ≠ 0 → b ≠ 0 → ((u.tile t.val).engine e).frames = [⟨0, b, SMap.get 0 x.counts r.val, 0⟩]) ∧
      (x.frames = [] → SMap.get 0 x.counts r.val = 0 ∨ b = 0 → ((u.tile t.val).engine e).frames = [] ∧ ((u.tile t.val).engine e).skip = b) ∧
      (x.frames ≠ [] → SMap.get 0 x.counts r.val ≠ 0 → b ≠ 0 →
        ((u.tile t.val).engine e).frames = ⟨x.pos + 1, b, SMap.get 0 x.counts r.val, 0⟩ :: x.frames)) ∧
    (q.cmd.op = .fin → answers (.endEngine t e) s fun u =>
      ((u.tile t.val).engine e).ended = true ∧ (u.tile t.val).sched.ended = (s.tile t.val).sched.ended ||| 2 ^ e.val)

/-! ## Power, resets, starts (01, 02, 16) -/

/-- The power input switches the module: on at 46.5 V and more where no over-voltage lock-out is in force, off at the lock-outs, on again at or below 57.0 V. Switching
on samples SLOT_ID and makes a cold start due unless MOD_RESET_N or PWR_PRES holds the module in reset; switching off unpowers everything with no orderly
shutdown and loses what is in flight.

An excursion of the input below 48.0 V that stays at or above 44.0 V posts one INPUT_LOW event with its lowest voltage and duration, and changes nothing else. -/
def Obligations.PowerInputSwitchesModule : Prop :=
  (∀ s : State,
    (∀ mv straps, s.power.on = false → s.power.ovLock = false → 46500 ≤ mv → mv < 58000 → answers (.powerApplied mv straps) s fun t =>
      t = { s with power := t.power } ∧ t.power.on = true ∧ t.power.slotId = straps.toNat ∧ t.power.readyOnce = false ∧
      t.power.phase = (if s.power.modReset || s.power.pwrPresOpen then .inReset else .cold)) ∧
    (∀ mv straps, s.power.on = false → s.power.ovLock = true → 46500 ≤ mv → mv ≤ 57000 → answers (.overvoltageLockoutRelease mv straps) s fun t =>
      t = { s with power := t.power } ∧ t.power.on = true ∧ t.power.ovLock = false ∧ t.power.slotId = straps.toNat ∧
      t.power.phase = (if s.power.modReset || s.power.pwrPresOpen then .inReset else .cold)) ∧
    (∀ tooHigh, s.power.on = true → answers (.inputLockout tooHigh) s fun t =>
      t.power.on = false ∧ t.power.ovLock = tooHigh ∧ t.power.phase = .off ∧ t.power.readyN = false ∧ t.power.bypassOpen = false ∧
      t.power.coreRail = false ∧ t.power.stackRail = false ∧ t.power.dramRail = false ∧ t.power.boardRail = false ∧
      t.txns = [] ∧ t.launches = [] ∧ t.ops = [] ∧ t.hostReads = [] ∧ (∀ p, (t.port p).up = false) ∧ t.hr.inUp = false ∧ t.hr.outUp = false) ∧
    (∀ tooHigh, s.power.on = false → answers (.inputLockout tooHigh) s fun t => t = { s with power := { s.power with ovLock := tooHigh } })) ∧
  (∀ (s : State) (mv us : Nat), s.power.on = true → s.power.bypassOpen = true → 44000 ≤ mv → mv < 48000 → s.log.intake.length < 64 →
    answers (.inputLowExcursion mv us) s fun t =>
      t = { s with log := t.log } ∧
      t.log = { s.log with intake := s.log.intake ++ [{ code := 0x02, source := 0x90, args := [mv, us], time := s.ts, step := s.laurel.step.num }] })

/-- Module reset takes effect at once whatever the module is doing, by each of its five causes: pins and by-pass as in reset, the cause latched for START, links
down, everything in flight lost with no record, measurement stopped; the contents of tiles, units and memory tiers stand. A loss of core power-good, a regulator fault
and a loss of the always-on rail make the next start a cold one.

Module reset ends, by MODULE_RESET_RELEASE or PWR_PRES_CLOSE, once nothing holds it: SLOT_ID is sampled, and a warm start is due exactly where Ready has been reached since
the last cold start and nothing since then calls for a cold one. -/
def Obligations.ModuleResetComesAndGoes : Prop :=
  (∀ (s : State) (c : Instr) (cause rail : Nat), s.power.on = true → s.power.phase ≠ .inReset →
    (c = .pwrPresOpen ∧ cause = 2 ∧ rail = 0) ∨ ((∃ ns b, c = .moduleReset ns b ∧ (10000 ≤ ns ∨ 1000 ≤ ns ∧ b = true)) ∧ cause = 1 ∧ rail = 0) ∨
      (c = .corePowerGoodLoss ∧ s.power.coreRail = true ∧ cause = 3 ∧ rail = 0) ∨
      ((∃ r st, c = .regulatorFault r st ∧ s.power.railOn r.val = true ∧ rail = r.val) ∧ cause = 4) ∨
      (c = .alwaysOnRailLoss ∧ cause = 0 ∧ rail = 0) →
    answers c s fun t =>
      t.power.phase = .inReset ∧ t.power.on = true ∧ t.power.readyN = false ∧ t.power.overtempN = false ∧ t.power.bypassOpen = false ∧
      t.power.causeLatch = cause ∧ t.power.causeRail = rail ∧ t.power.selfRefresh = true ∧ t.power.slotId = s.power.slotId ∧
      (cause = 0 ∨ cause = 3 ∨ cause = 4 → t.power.coldNext = true) ∧
      t.txns = [] ∧ t.launches = [] ∧ t.notices = [] ∧ t.ops = [] ∧ t.hostReads = [] ∧ t.dictQ = [] ∧ t.drain = {} ∧ (∀ p, (t.port p).up = false) ∧
      t.hr.inUp = false ∧ t.hr.outUp = false ∧ t.hk = Hk.stopped ∧ t.ts = s.ts ∧ t.tiles = s.tiles ∧ t.tiers = s.tiers ∧ t.units = s.units) ∧
  (∀ (s : State) (straps : BitVec 6), s.power.on = true → s.power.phase = .inReset →
    (s.power.pwrPresOpen = false → answers (.moduleResetRelease straps) s fun t =>
      t = { s with power := { s.power with
        modReset := false, slotId := straps.toNat, phase := if s.power.readyOnce && !s.power.coldNext then .warm else .cold } }) ∧
    (s.power.pwrPresOpen = true → s.power.modReset = false → answers (.pwrPresClose straps) s fun t =>
      t = { s with power := { s.power with
        pwrPresOpen := false, slotId := straps.toNat, phase := if s.power.readyOnce && !s.power.coldNext then .warm else .cold } }) ∧
    (s.power.pwrPresOpen = true → s.power.modReset = true → answers (.pwrPresClose straps) s fun t =>
      t = { s with power := { s.power with pwrPresOpen := false } }))

/-- A start that meets no failure, and none of whose measurement rounds meets a trip, reaches Ready: READY_N driven low, the rails on, the by-pass open, the start counted, the nominal
time of its kind gone by (2.5 ms more for each listed hard repair), START the first record of the emptied log with kind and cause, the fans under control (01 R47, 14 R453); a
cold one begins the timestamp anew.

A start that fails in step 3, 6 or 8 stops there: READY_N stays released, OD 0x9010.04 names step and cause, and the module does not leave that state but by module
reset: its phase is Stopped. -/
def Obligations.StartsReachReadyOrStop : Prop :=
  (∀ (s : State) (o : StartIn), s.power.on = true → o.fail = none → o.paramsLost = [] →
    (s.power.phase = .cold → s.startsCool true o → answers (.coldStart o) s fun t =>
      t.power.phase = .ready ∧ t.power.readyN = true ∧ t.power.pstate = 1 ∧ t.power.bypassOpen = true ∧ t.power.coreRail = true ∧
      t.power.pwmReleased = false ∧ t.hk.fanControl = true ∧ t.power.coldStarts = inc32 s.power.coldStarts ∧ t.power.warmStarts = s.power.warmStarts ∧
      t.ts = 1000 * (1800000 + 2500 * s.commitServed.hardList.length) ∧ (t.log.records.head?.map fun r => (r.seq, r.ev.code, r.ev.args)) =
        some (1, 0x01, [1, s.power.causeLatch, if s.power.causeLatch = 4 then s.power.causeRail else 0])) ∧
    (s.power.phase = .warm → o.storeBad = false → s.startsCool false o → answers (.warmStart o) s fun t =>
      t.power.phase = .ready ∧ t.power.readyN = true ∧ t.power.pstate = 1 ∧ t.power.bypassOpen = true ∧ t.power.coreRail = true ∧
      t.power.pwmReleased = false ∧ t.hk.fanControl = true ∧ t.power.coldStarts = s.power.coldStarts ∧ t.power.warmStarts = inc32 s.power.warmStarts ∧
      t.ts = s.ts + 1000 * ((if s.power.fromSlumber then 448000 else if s.commitServed.odv 0x9010 1 = 1 then 350000 else 420000) + 2500 * s.commitServed.hardList.length) ∧
      (t.log.records.head?.map fun r => (r.seq, r.ev.code, r.ev.args)) =
        some (1, 0x01, [2, s.power.causeLatch, if s.power.causeLatch = 4 then s.power.causeRail else 0]))) ∧
  (∀ (s : State) (o : StartIn) (n c : Nat), s.power.on = true → o.fail = some (n, c) → (n, c) ∈ [(1, 1), (3, 3), (6, 4), (8, 5)] →
    (s.power.phase = .cold → s.startsCool true o → answers (.coldStart o) s fun t =>
      t.power.phase = .stopped ∧ t.power.readyN = false ∧ t.power.startFail = n + 256 * c ∧ t.power.startStep = n ∧ t.power.pstate = 0) ∧
    (s.power.phase = .warm → s.startsCool o.storeBad o → answers (.warmStart o) s fun t =>
      t.power.phase = .stopped ∧ t.power.readyN = false ∧ t.power.startFail = n + 256 * c ∧ t.power.startStep = n ∧ t.power.pstate = 0))

/-- What a start does to the die's arrays: after a cold start, and after a warm one from Slumber, every tile's scratchpad, vector registers, accumulators and stationary
buffers are zero; a warm start after module reset keeps them, and what was corrected of the scratchpad is clean again. -/
def Obligations.StartTreatsTileMemories : Prop :=
  ∀ (s : State) (o : StartIn), s.power.on = true → o.fail = none →
    (s.power.phase = .cold → answers (.coldStart o) s fun t => ∀ v, t.tile v = {}) ∧
    (s.power.phase = .warm → o.storeBad = false → s.power.fromSlumber = true → answers (.warmStart o) s fun t => ∀ v, t.tile v = {}) ∧
    (s.power.phase = .warm → o.storeBad = false → s.power.fromSlumber = false → s.startsCool false o → answers (.warmStart o) s fun t => ∀ v,
      (t.tile v).scratch = (s.tile v).scratch ∧ (t.tile v).vreg = (s.tile v).vreg ∧ (t.tile v).acc = (s.tile v).acc ∧
      (t.tile v).active = (s.tile v).active ∧ (t.tile v).shadow = (s.tile v).shadow ∧ (t.tile v).words = (s.tile v).words.filter (fun e => e.2 != 2) ∧
      (t.tile v).kern.inKernel = false ∧ (t.tile v).fifo = [])

/-! ## Measurement, thermal control, power states (14) -/

/-- A conversion in its channel's slot keeps the channel's new raw reading and moves to the next slot; a shorted or missing sensor is reported as such (14 R452 to R456).

A trip is decided in its channel's slot: OVERTEMP_N is driven, thermal state 3 begins with both fans at full speed, and the module enters Slumber at once, at Ready and in a start
that has stopped alike (14 R461, R464, R465, R466; 16 R501).

The end of a round publishes every channel's conversion, begins the next round, gives the beat periods by the tiles' counters (the model's rounding:
log 88), and leaves both fans at the duty of the thermal state (14 R452, R464; 02 R56). Slots and rounds take their time of the timebase (02 R60).

A change of operating point, by a write of the ceiling or by a step of thermal control at a round's end, cancels, repeats and reorders no operation: all work in flight is as it was
(02 R58). -/
def Obligations.MeasurementRoundAndTrip : Prop :=
  (∀ (s : State) (ch : Fin 24) (x : Sample), s.power.on = true → s.power.bypassOpen = true → s.hk.slot = ch.val → s.slotDue ch.val = true →
    answers (.channelConversion ch x) s fun t =>
      t.hk.slot = ch.val + 1 ∧ (t.chan ch.val).raw = (convertChan ch.val x).2 ∧ (t.chan ch.val).rawStatus = (convertChan ch.val x).1 ∧
      (t.chan ch.val).reading = (s.chan ch.val).reading ∧ (∀ d, d ≠ ch.val → t.chan d = s.chan d) ∧
      (ch.val < 12 → x.opened = true → (t.chan ch.val).rawStatus = 3) ∧
      (12 ≤ ch.val → ch.val < 20 → 1750000 < x.a → (t.chan ch.val).rawStatus = 1) ∧
      (12 ≤ ch.val → ch.val < 20 → x.a < 50000 → (t.chan ch.val).rawStatus = 2)) ∧
  (∀ (s : State) (ch : Fin 24) (x : Sample), s.power.bypassOpen = true → s.power.on = true → s.hk.thermal ≠ 3 → s.hk.slot = ch.val → ch.val < 20 → s.slotDue ch.val = true →
    s.hk.fanControl = true → s.hk.left.contains ch.val = false → (s.chan ch.val).faulty = false → (convertChan ch.val x).1 = 0 →
    s.tripAt ch.val ≤ sext 32 (convertChan ch.val x).2 →
    answers (.channelConversion ch x) s fun t =>
      t.power.overtempN = true ∧ t.power.readyN = false ∧ t.power.phase = .slumber ∧ t.power.pstate = 4 ∧ t.power.coreRail = false ∧
      t.power.stackRail = false ∧ t.power.selfRefresh = true ∧ t.hk.thermal = 3 ∧ t.hk.fansFull ∧ t.tiles = [] ∧ t.units = [] ∧ t.txns = [] ∧
      t.launches = [] ∧ t.ops = [] ∧ (s.power.isolated = false → ∀ p, (t.port p).up = false)) ∧
  (∀ (s : State) (r : RoundIn), s.power.on = true → s.power.bypassOpen = true → s.hk.slot = 24 → s.slotDue 24 = true →
    answers (.measurementRoundEnd r) s fun t =>
      t.hk.slot = 0 ∧ t.hk.rounds = (s.hk.rounds + 1) % 2 ^ 32 ∧ t.hk.roundTs = s.ts ∧ t.hk.inPower = r.inPower ∧
      (s.power.isolated = false → t.hk.beatSlow = beatPeriod (s.ts - s.hk.roundAt) (s.roundBeats.foldl min (2 ^ 48)) ∧
        t.hk.beatMean = beatPeriod (128 * (s.ts - s.hk.roundAt)) s.roundBeats.sum) ∧
      (∀ c, c < 24 → (t.chan c).reading = (s.chan c).raw ∧ (t.chan c).status = (s.chan c).rawStatus) ∧
      t.hk.fanControl = true ∧ t.power.pwmReleased = false ∧ t.hk.fansFull) ∧
  (∀ (s : State) (r : RoundIn), s.isReady = true → s.hk.thermal ≠ 3 → answers (.measurementRoundEnd r) s fun t => s.sameWork t) ∧
  (∀ (s : State) (q : DictReq) (d : List Byte), s.sameWork (s.dictWrite q 0x3000 1 d))

/-- Idle begins when no launcher, port or Briar port has held work for 1 µs, as Idle with Doze where every stack's units are in Doze; the units of a stack enter Doze
together when all 64 have been idle for 100 µs, keep their stores and lose their buffers, and leave it when traffic for them waits at the stack port (14 R466,
R467). -/
def Obligations.IdleAndDoze : Prop :=
  ∀ s : State, s.isReady = true →
    (s.power.pstate = 1 → s.holdsWork = false → SMap.get 0 s.power.busyAt 8 + 1000 ≤ s.ts → answers .idleEnter s fun t =>
      t = { s with power := { s.power with pstate := if s.allDoze then 3 else 2 } }) ∧
    (∀ k : StackId, (s.tier k.val).doze = false → s.unitTraffic k.val = false → SMap.get 0 s.power.busyAt k.val + 100000 ≤ s.ts →
      (∀ u, u < 64 → s.unitIdle (64 * k.val + u) = true) →
      answers (.privetDozeEnter k) s fun t =>
        (t.tier k.val).doze = true ∧ (∀ u, u < 64 → (t.unit (64 * k.val + u)).buffer = [] ∧ (t.unit (64 * k.val + u)).store = (s.unit (64 * k.val + u)).store) ∧
        (∀ u, u < 64 * k.val ∨ 64 * k.val + 64 ≤ u → t.unit u = s.unit u) ∧ (t.tier k.val).mem = (s.tier k.val).mem) ∧
    (∀ k : StackId, (s.tier k.val).doze = true → s.unitTraffic k.val = true → answers (.privetDozeExit k) s fun t =>
      (t.tier k.val).doze = false ∧ (∀ u, t.unit u = s.unit u) ∧ (t.tier k.val).mem = (s.tier k.val).mem)

/-! ## Kernels (04 R112 to R137) -/

/-- A tile beat counts in BEAT_COUNT whatever the tile does. Outside a kernel nothing else of its schedule moves; in a held beat the kernel's beat stands still, the cause is
reported and the hold counted; an unheld beat with nothing left to issue closes, and the next kernel beat begins. The beat in which the kernel starts is neither held nor a
kernel beat. A fault met in the beat ends the kernel as it closes: the engines' queues are emptied and the core is halted. (None of it while the remote port is inside a
request of several grains that can go on: that grain comes first, 03 R94.)

What the unheld beat before a landing does with the results that land in it: a vector register takes its bytes, TZERO clears every row, TSWAP exchanges the stationary
buffers (04 R121 to R123). -/
def Obligations.KernelBeatAndLandings : Prop :=
  (∀ (s : State) (t : TileId) (x : Tile), s.isReady = true → s.burstDue t.val = false → x = s.tile t.val →
    (x.kern.inKernel = false → answers (.kernelBeat t []) s fun u =>
      (u.tile t.val).ctl.beatCount = (x.ctl.beatCount + 1) % 2 ^ 48 ∧ (u.tile t.val).sched.kbeat = x.sched.kbeat ∧ (u.tile t.val).sameData x ∧
      ∀ v, v ≠ t.val → u.tile v = s.tile v) ∧
    (x.kern.inKernel = true → x.kern.startBeat = true → x.holdCauseNow ≠ 0 → answers (.kernelBeat t []) s fun u =>
      (u.tile t.val).kern.startBeat = false ∧ (u.tile t.val).ctl.beatCount = (x.ctl.beatCount + 1) % 2 ^ 48 ∧ (u.tile t.val).sched.kbeat = x.sched.kbeat ∧
      (u.tile t.val).sched.held = x.sched.held ∧ (u.tile t.val).sched.holdBeats = x.sched.holdBeats ∧ (u.tile t.val).sched.curHold = x.sched.curHold) ∧
    (∀ c, x.kern.inKernel = true → x.kern.startBeat = false → x.holdCauseNow ≠ 0 → x.kern.stopped = false → x.kern.pend = c → c ≠ 0 →
      answers (.kernelBeat t []) s fun u => (u.tile t.val).kern.stopped = true ∧ (u.tile t.val).kern.fault = c ∧ (u.tile t.val).sched.kfault = c ∧
        (u.tile t.val).core.halted = true ∧ ∀ e : EngId, ((u.tile t.val).engine e).queue = []) ∧
    (x.kern.inKernel = true → x.kern.startBeat = false → x.kern.pend = 0 → x.holdCauseNow ≠ 0 → answers (.kernelBeat t []) s fun u =>
      (u.tile t.val).ctl.beatCount = (x.ctl.beatCount + 1) % 2 ^ 48 ∧ (u.tile t.val).sched.kbeat = x.sched.kbeat ∧ (u.tile t.val).sched.held = true ∧
      (u.tile t.val).sched.holdCause = x.holdCauseNow ∧ (u.tile t.val).sched.holdBeats = add64 x.sched.holdBeats 1 ∧
      (u.tile t.val).sched.curHold = x.sched.curHold + 1 ∧ ∀ e, (u.tile t.val).engine e = x.engine e) ∧
    (x.kern.inKernel = true → x.kern.startBeat = false → x.holdCauseNow = 0 → (∀ e : EngId, x.issuable e = none) → answers (.kernelBeat t []) s fun u =>
      (u.tile t.val).ctl.beatCount = (x.ctl.beatCount + 1) % 2 ^ 48 ∧ (u.tile t.val).sched.kbeat = x.sched.kbeat + 1 ∧ (u.tile t.val).sched.held = false ∧
      (u.tile t.val).sched.curHold = 0 ∧ ∀ v, v ≠ t.val → u.tile v = s.tile v)) ∧
  (∀ (s : State) (t : TileId) (x : Tile) (i : Nat), s.isReady = true → s.burstDue t.val = false → x = s.tile t.val → x.kern.inKernel = true →
    x.kern.startBeat = false → x.holdCauseNow = 0 →
    (∀ e : EngId, x.dueCmd e = none) → x.reads = [] → x.writes = [] → x.ops = [] →
    (∀ rd : Fin 32, ∀ bytes flags, bytes.length = 512 → flags.length = 8 → x.lands = [⟨x.sched.kbeat + 1, i, .vreg rd.val 0 bytes flags⟩] →
      answers (.kernelBeat t []) s fun u => (u.tile t.val).vbytes rd.val = bytes ∧ (∀ g, g < 8 → (u.tile t.val).vpoison rd.val g = flags.getD g false) ∧
        (∀ r, r < 32 → r ≠ rd.val → (u.tile t.val).vbytes r = x.vbytes r) ∧ (u.tile t.val).acc = x.acc ∧ (u.tile t.val).scratch = x.scratch ∧
        (u.tile t.val).lands = []) ∧
    (x.lands = [⟨x.sched.kbeat + 1, i, .accZero⟩] → answers (.kernelBeat t []) s fun u =>
      (u.tile t.val).acc = [] ∧ (u.tile t.val).accPoison = [] ∧ (u.tile t.val).vreg = x.vreg ∧ (u.tile t.val).scratch = x.scratch) ∧
    (x.lands = [⟨x.sched.kbeat + 1, i, .swap⟩] → answers (.kernelBeat t []) s fun u =>
      (u.tile t.val).active = x.shadow ∧ (u.tile t.val).shadow = x.active ∧ (u.tile t.val).acc = x.acc ∧ (u.tile t.val).vreg = x.vreg) ∧
    (∀ b, x.lands = [⟨b, i, .accZero⟩] → b ≠ x.sched.kbeat + 1 → answers (.kernelBeat t []) s fun u =>
      (u.tile t.val).acc = x.acc ∧ (u.tile t.val).lands = x.lands))

/-- When TZERO and TMUL accumulations reach accumulator rows in the same beat, the rows are cleared, every such accumulation is discarded, and each increments REG_LOST (beside the
vector results lost to later issued ones). -/
def Obligations.ZeroBeatsAccumulation : Prop :=
  ∀ (w : Work) (now : List Land), now = w.t.lands.filter (fun l => l.beat == w.t.sched.kbeat) → (∃ l ∈ now, l.what = .accZero) → w.t.count cRegLost < 2 ^ 32 →
    w.landRegs.t.acc = [] ∧ w.landRegs.t.accPoison = [] ∧
    w.landRegs.t.count cRegLost = satAdd 32 (w.t.count cRegLost) (now.countP fun l => match l.what with
      | .accAdd .. => true
      | .vreg rd .. => now.any fun x => (match x.what with | .vreg r2 _ _ _ => r2 == rd && decide (l.issue < x.issue) | _ => false)
      | _ => false)

/-- A kernel starts in a tile when its first word is popped, opens with its opening command at kernel beat 0, and takes commands of the core into the queues of its engaged
engines; the word is the core's load result. Of the engines only the loop counts outlast the start. -/
def Obligations.KernelStartsAndOpens : Prop :=
  ∀ (s : State) (t : TileId) (x : Tile), x = s.tile t.val →
    (∀ rd rs1 imm len w r, fetches s t.val (.load 2 rd rs1 imm) len → (s.core t.val).addr rs1 imm = 0x20004 → x.fifo = w :: r → w.poison = false →
      (w.start = true → x.kern.inKernel = false) → answers (.bcastFifoPop t []) s fun u =>
        (u.tile t.val).fifo = r ∧ u.core t.val = (s.core t.val).next rd (bits w.data 32 32) len ∧ (u.tile t.val).sameData x ∧
        (w.start = true → (u.tile t.val).kern.inKernel = true ∧ (u.tile t.val).kern.launch = w.launch ∧ (u.tile t.val).kern.kernelId = w.kernelId ∧
          (u.tile t.val).kern.opened = false ∧ (u.tile t.val).kern.hawthorn = x.ctl.hawthorn ∧ (u.tile t.val).cache = [] ∧ (u.tile t.val).kern.startBeat = true ∧
          (∀ e : EngId, (u.tile t.val).engine e = { counts := (x.engine e).counts }) ∧ (u.tile t.val).sched.tally = []) ∧
        (w.start = false → (u.tile t.val).kern.inKernel = x.kern.inKernel ∧ (u.tile t.val).eng = x.eng)) ∧
    (s.isReady = true → x.kern.inKernel = true → x.kern.startBeat = false → x.kern.opened = false → x.kern.stopped = false → x.kern.heldAs = 0 → x.kern.decl.isSome = true →
      (∃ (e : EngId) (q : QCmd) (r : List QCmd), (x.engine e).engaged = true ∧ (x.engine e).queue = q :: r ∧ q.idx = 0 ∧ q.cmd.opening.isSome = true ∧
        q.ready = true ∧ q.bad = false ∧ x.condMet q.cmd = true) →
      answers (.openingCommand t) s fun u => (u.tile t.val).kern.opened = true ∧ (u.tile t.val).sched.kbeat = 0 ∧ (u.tile t.val).eng = x.eng ∧ onlyTile s u t.val) ∧
    (∀ (e : EngId) f3 rs1 rs2 imm len c, fetches s t.val (.store f3 rs1 rs2 imm) len → s.coreAt t.val ((s.core t.val).addr rs1 imm) (accBytes f3) = .queue e →
      (s.core t.val).addr rs1 imm % accBytes f3 = 0 → x.kern.inKernel = true → x.kern.stopped = false → x.kern.decl.isSome = true →
      (x.engine e).engaged = true → (x.engine e).full = false → x.kern.zeroLen = false → opExpressible c.op = true →
      answers (.engineCommandPush t e (some c) false) s fun u =>
        ((u.tile t.val).engine e).queue = (x.engine e).norm.queue ++ [{ cmd := c, idx := (x.engine e).pushed % 65536, bad := false, got := [] }] ∧
        ((u.tile t.val).engine e).pushed = (x.engine e).pushed + 1 ∧ u.core t.val = (s.core t.val).skip len ∧ (u.tile t.val).sameData x) ∧
    (∀ (e : EngId) i q a, s.isReady = true → ((x.engine e).queue ++ (x.engine e).buf).find? (·.idx == i) = some q → nextDesc q.cmd.op q.got = some (.scratch a) →
      a / 64 ≤ topGrain → s.portFree t.val (bankOf (a / 64)) false = true → answers (.descriptorArrive t e i) s fun u =>
        (u.tile t.val).remoteUse = some (bankOf (a / 64)) ∧
        ∃ d : Piece, d.bytes = x.scratch.read (64 * (a / 64)) 64 ∧
          (((u.tile t.val).engine e).queue ++ ((u.tile t.val).engine e).buf).find? (·.idx == i) = some { q with got := q.got ++ [d], grains := outGrains s.briar.n q.cmd.op (q.got ++ [d]) })

/-- A kernel ends in a tile and completes for its launcher: a hold past its limit is fault 7, met as the beat closes unless a lower code is; the end notice carries the
kernel's fault and flags; the last notice completes the launch, and a host's operation takes KERNEL_FAULT or ABORTED from the first fault code, or from the lowest of those that
reach the launcher in its beat. -/
def Obligations.KernelEndsAndCompletes : Prop :=
  ∀ s : State, s.isReady = true →
    (∀ t : TileId, s.holdTooLong t.val = true → (s.tile t.val).kern.stopped = false → answers (.holdLimitExpire t) s fun u =>
      (u.tile t.val).kern = { (s.tile t.val).kern with pend := if (s.tile t.val).kern.pend = 0 then 7 else min (s.tile t.val).kern.pend 7 } ∧
      (u.tile t.val).sched = (s.tile t.val).sched ∧ (u.tile t.val).eng = (s.tile t.val).eng ∧ (u.tile t.val).sameData (s.tile t.val) ∧ onlyTile s u t.val) ∧
    (∀ t : TileId, (s.tile t.val).mayEnd = true → answers (.kernelEnd t) s fun u =>
      (u.tile t.val).kern.inKernel = false ∧ u.notices = s.notices ++ [⟨(s.tile t.val).kern.launch, t.val, (s.tile t.val).kern.fault,
        (s.tile t.val).kern.poisoned, (s.tile t.val).kern.unchecked, (s.tile t.val).kern.zeroLen⟩] ∧ (u.tile t.val).sameData (s.tile t.val) ∧
      (∀ v, v ≠ t.val → u.tile v = s.tile v) ∧ u.launches = s.launches) ∧
    (∀ id l op o, s.launches.find? (·.id == id) = some l → (∀ v ∈ l.open_, ∃ n ∈ s.notices, n.launch = id ∧ n.tile = v) → l.by_ = .hostOp op →
      s.op? op = some o → o.stage = .running → o.status = 0 → answers (.kernelComplete id) s fun u =>
        u.launches = s.launches.filter (·.id != id) ∧ u.notices = s.notices.filter (·.launch != id) ∧ u.tiles = s.tiles ∧
        ∃ y, u.op? op = some y ∧ y.stage = .done ∧
          ((∀ n ∈ s.notices, n.launch = id → n.fault = 0) → y.status = 0) ∧
          (∀ n, (s.notices.filter (·.launch == id)).find? (·.fault != 0) = some n →
            ∃ m ∈ s.notices, m.launch = id ∧ m.fault ≠ 0 ∧ m.fault ≤ n.fault ∧ y.status = (if m.fault = 9 then 8 else 1) ∧ y.fault = m.fault ∧ y.detail = m.tile) ∧
          (y.poisoned = true ↔ ∃ n ∈ s.notices, n.launch = id ∧ n.poisoned = true))

/-- Releases and landings at a tile: a release leaves the injection port once nothing of its home set is owed; a grain of the tile's own transfer lands in its bank with its data, a
remote write's likewise, its acknowledgement leaving. -/
def Obligations.ReleasesAndLandings : Prop :=
  ∀ (s : State) (t : TileId), s.isReady = true →
    (∀ op q, s.txns.find? (fun x => x.stage == .held && x.tile? == some t.val && (match x.purpose with | .outbound _ o => o == op | _ => false)) = some q →
      s.owes t.val (q.rel.getD 2) (.op op q.sentAt (((((s.tile t.val).ops.find? (·.id == op)).map (·.issue))).getD (s.tile t.val).sched.kbeat)) = false → answers (.releaseInject t op) s fun u =>
        u = { s with txns := u.txns, power := u.power } ∧ u.txns.length = s.txns.length ∧
        ∀ x ∈ u.txns, x.tile? = some t.val → (∃ f, x.purpose = .outbound f op) → x.stage ≠ .held) ∧
    (∀ op g o n, (s.tile t.val).ops.find? (·.id == op) = some o → o.grains[g]? = some n → n.landed = false → n.missing = 0 → n.addr % 64 = 0 →
      n.addr / 64 ≤ topGrain → n.data.bytes.length = 64 → (s.tile t.val).bankUse = [] → (s.tile t.val).writes = [] → (s.tile t.val).kern.inKernel = false →
      (s.tile t.val).remoteUse = none → answers (.inboundGrainLand t (.own op g)) s fun u =>
        (u.tile t.val).scratch.read n.addr 64 = n.data.bytes ∧ (u.tile t.val).bankUse = [16 * o.eng.val + bankOf (n.addr / 64)] ∧
        (∃ o', (u.tile t.val).ops.find? (·.id == op) = some o' ∧ o'.grains[g]? = some { n with landed := true }) ∧
        (∀ a, a < n.addr ∨ n.addr + 64 ≤ a → SMap.get 0#8 (u.tile t.val).scratch a = SMap.get 0#8 (s.tile t.val).scratch a) ∧ onlyTile s u t.val) ∧
    (∀ id q off, s.ready id (· == .write) = some q → placeOf q.dest.addr = .scratch t.val off → off % 64 + q.data.bytes.length ≤ 64 → q.data.bytes ≠ [] →
      s.portTakes t.val q (bankOf (off / 64)) = true → answers (.inboundGrainLand t (.remote id)) s fun u =>
        (u.tile t.val).scratch.read off q.data.bytes.length = q.data.bytes ∧ (u.tile t.val).remoteUse = some (bankOf (off / 64)) ∧
        (∃ y ∈ u.txns, y.id = id ∧ y.stage = .responding) ∧ (∀ v, v ≠ t.val → u.tile v = s.tile v) ∧
        ∀ a, a < off ∨ off + q.data.bytes.length ≤ a → SMap.get 0#8 (u.tile t.val).scratch a = SMap.get 0#8 (s.tile t.val).scratch a)

/-! ## The control core (03 R97 to R103, 09 R302, R303) -/

/-- Instructions of registers alone: RV32I and M arithmetic writes its destination (never x0) and moves the pc past itself; jumps and branches move the pc to their target; MRET goes
back to mepc with the interrupt enable restored. Nothing else changes. -/
def Obligations.CoreRegisterInstructions : Prop :=
  ∀ (s : State) (t : TileId) (i : Rv) (len : Nat) (c : CoreSt), fetches s t.val i len → c = s.core t.val →
    (∀ rd v, (∃ imm, i = .lui rd imm ∧ v = toBits 32 imm) ∨ (∃ imm, i = .auipc rd imm ∧ v = toBits 32 ((c.pc : Int) + imm)) ∨
        (∃ f a imm r, i = .opImm f rd a imm r ∧ v = aluOp f r (c.reg a) (toBits 32 imm)) ∨ (∃ f a b r, i = .op f rd a b r ∧ v = aluOp f r (c.reg a) (c.reg b)) ∨
        (∃ f a b, i = .mul f rd a b ∧ v = mulOp f (c.reg a) (c.reg b)) →
      answers (.coreInstruction t []) s fun u => onlyCore s u t.val ∧ u.core t.val = c.next rd v len ∧ (u.core t.val).reg 0 = 0 ∧
        (rd ≠ 0 → (u.core t.val).reg rd = v % 2 ^ 32) ∧ ∀ r, r ≠ rd → (u.core t.val).reg r = c.reg r) ∧
    (∀ rd imm, i = .jal rd imm → answers (.coreInstruction t []) s fun u => onlyCore s u t.val ∧
      (u.core t.val).pc = toBits 32 ((c.pc : Int) + imm) / 2 * 2 % 2 ^ 32 ∧ (rd ≠ 0 → (u.core t.val).reg rd = (c.pc + len) % 2 ^ 32)) ∧
    (∀ rd a imm, i = .jalr rd a imm → answers (.coreInstruction t []) s fun u => onlyCore s u t.val ∧
      (u.core t.val).pc = c.addr a imm / 2 * 2 % 2 ^ 32 ∧ (rd ≠ 0 → (u.core t.val).reg rd = (c.pc + len) % 2 ^ 32)) ∧
    (∀ f a b imm, i = .branch f a b imm → answers (.coreInstruction t []) s fun u => onlyCore s u t.val ∧ (u.core t.val).regs = c.regs ∧
      (u.core t.val).pc = (if branchTaken f (c.reg a) (c.reg b) then toBits 32 ((c.pc : Int) + imm) / 2 * 2 % 2 ^ 32 else (c.pc + len) % 2 ^ 32)) ∧
    (i = .mret → answers (.coreInstruction t []) s fun u => onlyCore s u t.val ∧ (u.core t.val).pc = c.csr 0x341 ∧
      (u.core t.val).csr 0x300 = (if (c.csr 0x300).testBit 7 then 0x88 else 0x80) ∧ (u.core t.val).regs = c.regs)

/-- Loads and stores of data memory, of the tile's broadcast FIFO and of the die window: a load retires with its extended value, a store changes its bytes alone; a die store leaves as a
posted write.

Atomics of data memory: an AMO returns the old word and stores the combination; LR reserves the word it reads; SC stores and answers 0 on the reserved word, and otherwise stores nothing
and answers 1; either way the reservation ends. -/
def Obligations.CoreMemoryAccesses : Prop :=
  (∀ (s : State) (t : TileId) (f3 rd rs1 rs2 len a n : Nat) (imm : Int) (c : CoreSt), c = s.core t.val → a = c.addr rs1 imm → n = accBytes f3 → a % n = 0 →
    (fetches s t.val (.load f3 rd rs1 imm) len → 0x10000 ≤ a → a < 0x20000 → SMap.get 0 c.dmemErr ((a - 0x10000) / 4) = 0 →
      answers (.coreLoad t []) s fun u => onlyCore s u t.val ∧ u.core t.val = c.next rd (loadExt f3 (leNat (c.dmem.read (a - 0x10000) n))) len) ∧
    (∀ w r, fetches s t.val (.load f3 rd rs1 imm) len → a = 0x20000 → n = 4 → (s.tile t.val).fifo = w :: r → w.poison = false →
      answers (.coreLoad t []) s fun u => onlyCore s u t.val ∧ u.core t.val = c.next rd (bits w.data 0 32) len) ∧
    (fetches s t.val (.store f3 rs1 rs2 imm) len → 0x10000 ≤ a → a < 0x20000 →
      answers (.coreStore t []) s fun u => onlyCore s u t.val ∧ (u.core t.val).regs = c.regs ∧ (u.core t.val).pc = (c.pc + len) % 2 ^ 32 ∧
        (u.core t.val).dmem.read (a - 0x10000) n = leBytes n (c.reg rs2) ∧
        ∀ b, b < a - 0x10000 ∨ a - 0x10000 + n ≤ b → SMap.get 0#8 (u.core t.val).dmem b = SMap.get 0#8 c.dmem b) ∧
    (fetches s t.val (.store f3 rs1 rs2 imm) len → 0x80000000 ≤ a →
      answers (.coreStore t []) s fun u => (u.core t.val) = c.skip len ∧ ∃ q : Txn, u.txns = s.txns ++ [q] ∧ q.agent = .core t ∧ q.kind = .write ∧
        q.dest = ⟨none, ((s.tile t.val).ctl.winBase * 2 ^ 31 + (a - 0x80000000)) % 2 ^ 64⟩ ∧ q.data = ⟨leBytes n (c.reg rs2), false⟩ ∧ q.stage = .queued)) ∧
  (∀ (s : State) (t : TileId) (rd rs1 rs2 len a : Nat) (aq : Bool) (c : CoreSt), c = s.core t.val → a = c.reg rs1 → 0x10000 ≤ a → a < 0x20000 → a % 4 = 0 →
    (∀ f5, fetches s t.val (.amo f5 rd rs1 rs2 false false) len → SMap.get 0 c.dmemErr ((a - 0x10000) / 4) = 0 → answers (.coreAmo t []) s fun u =>
      (u.core t.val).dmem.read (a - 0x10000) 4 = leBytes 4 (amoOp f5 (leNat (c.dmem.read (a - 0x10000) 4)) (c.reg rs2)) ∧
      (rd ≠ 0 → (u.core t.val).reg rd = leNat (c.dmem.read (a - 0x10000) 4) % 2 ^ 32) ∧ (u.core t.val).pc = (c.pc + len) % 2 ^ 32 ∧
      onlyCore s u t.val ∧ ∀ b, b < a - 0x10000 ∨ a - 0x10000 + 4 ≤ b → SMap.get 0#8 (u.core t.val).dmem b = SMap.get 0#8 c.dmem b) ∧
    (fetches s t.val (.lr rd rs1 aq false) len → SMap.get 0 c.dmemErr ((a - 0x10000) / 4) = 0 → answers (.coreLr t []) s fun u =>
      (u.core t.val).resv = some (a - 0x10000) ∧ (rd ≠ 0 → (u.core t.val).reg rd = leNat (c.dmem.read (a - 0x10000) 4) % 2 ^ 32) ∧
      (u.core t.val).pc = (c.pc + len) % 2 ^ 32 ∧ (u.core t.val).dmem = c.dmem) ∧
    (fetches s t.val (.sc rd rs1 rs2 aq false) len → c.resv = some (a - 0x10000) → answers (.coreSc t []) s fun u =>
      (u.core t.val).dmem.read (a - 0x10000) 4 = leBytes 4 (c.reg rs2) ∧ (rd ≠ 0 → (u.core t.val).reg rd = 0) ∧ (u.core t.val).resv = none ∧
      (u.core t.val).pc = (c.pc + len) % 2 ^ 32) ∧
    (fetches s t.val (.sc rd rs1 rs2 aq false) len → c.resv ≠ some (a - 0x10000) → answers (.coreSc t []) s fun u =>
      onlyCore s u t.val ∧ (u.core t.val).dmem = c.dmem ∧ (rd ≠ 0 → (u.core t.val).reg rd = 1) ∧ (u.core t.val).resv = none ∧
      (u.core t.val).pc = (c.pc + len) % 2 ^ 32))

/-- The core's ordering rows: a fence passes once no store of the core in its scope is owed, and drops the read cache where it orders reads after it at die scope or wider; FENCE.I only
passes; WFI waits, or passes where an enabled interrupt is pending; a write of SYNCSCOPE with a scope code takes it and with another keeps the old.

Traps of the control core: a misaligned load, a store to nowhere, ECALL and the external interrupt save the pc in mepc and the cause in mcause, turn interrupts off with their enable
kept in MPIE, and go to the handler; with no handler the core halts. (mtval where no rule gives it is open, log 23.) -/
def Obligations.CoreOrderingAndTraps : Prop :=
  (∀ (s : State) (t : TileId) (len : Nat) (c : CoreSt), c = s.core t.val →
    (∀ p q, fetches s t.val (.fence p q) len → s.coreOwes t c.syncScope = false → answers (.coreFence t []) s fun u =>
      onlyCore s u t.val ∧ u.core t.val = c.skip len ∧
      ((q.testBit 1 || q.testBit 3) = true → 2 ≤ c.syncScope → (u.tile t.val).cache = []) ∧
      (c.syncScope < 2 → (u.tile t.val).cache = (s.tile t.val).cache)) ∧
    (∀ p q, fetches s t.val (.fence p q) len → (p.testBit 0 || p.testBit 2) = true → s.coreOwes t c.syncScope = true →
      answers (.coreFence t []) s fun u => u = { s with power := u.power }) ∧
    (fetches s t.val .fenceTso len → s.coreOwes t c.syncScope = false → answers (.fenceTso t []) s fun u => onlyCore s u t.val ∧ u.core t.val = c.skip len ∧
      (2 ≤ c.syncScope → (u.tile t.val).cache = [])) ∧
    (fetches s t.val .fenceI len → answers (.fenceI t []) s fun u => onlyCore s u t.val ∧ u.core t.val = c.skip len ∧ (u.tile t.val).cache = (s.tile t.val).cache) ∧
    (fetches s t.val .wfi len → answers (.wfi t []) s fun u => onlyCore s u t.val ∧
      u.core t.val = (if (s.tile t.val).irqWakes then c.skip len else { c with wfi := true })) ∧
    (∀ rd rs1, fetches s t.val (.csr 1 rd rs1 0x7C0 false) len → answers (.syncscopeWrite t []) s fun u => onlyCore s u t.val ∧
      (u.core t.val).syncScope = (if bits (c.reg rs1) 0 3 < 5 then bits (c.reg rs1) 0 3 else c.syncScope) ∧
      (rd ≠ 0 → (u.core t.val).reg rd = c.syncScope % 2 ^ 32) ∧ (u.core t.val).pc = (c.pc + len) % 2 ^ 32)) ∧
  (∀ (s : State) (t : TileId) (c : CoreSt) (cmd : Instr) (cause pc : Nat), c = s.core t.val → pc < 2 ^ 32 → pc % 2 = 0 →
    (∃ f3 rd rs1 imm len, fetches s t.val (.load f3 rd rs1 imm) len ∧ c.addr rs1 imm % accBytes f3 ≠ 0 ∧ cmd = .coreLoad t [] ∧ cause = 4 ∧ pc = c.pc) ∨
      (∃ f3 rs1 rs2 imm len, fetches s t.val (.store f3 rs1 rs2 imm) len ∧ c.addr rs1 imm % accBytes f3 = 0 ∧
        s.coreAt t.val (c.addr rs1 imm) (accBytes f3) = .none_ ∧ cmd = .coreStore t [] ∧ cause = 7 ∧ pc = c.pc) ∨
      (∃ len, fetches s t.val .ecall len ∧ cmd = .coreInstruction t [] ∧ cause = 11 ∧ pc = c.pc) ∨
      (s.isReady = true ∧ s.drain.heldMarch = false ∧ c.halted = false ∧ (s.tile t.val).irqWakes = true ∧ (c.csr 0x300).testBit 3 = true ∧
        cmd = .coreInterrupt t ∧ cause = 0x8000000B ∧ pc = (if c.wfi then (c.pc + 4) % 2 ^ 32 else c.pc)) →
    answers cmd s fun u => (u.tile t.val).sameData (s.tile t.val) ∧ (u.core t.val).csr 0x341 = pc ∧ (u.core t.val).csr 0x342 = cause ∧
      (u.core t.val).csr 0x300 = (if (c.csr 0x300).testBit 3 then 0x80 else 0) ∧ (u.core t.val).regs = c.regs ∧
      (u.core t.val).halted = decide (c.csr 0x305 / 4 = 0) ∧
      (c.csr 0x305 / 4 ≠ 0 → (c.csr 0x305).testBit 0 = false → (u.core t.val).pc = c.csr 0x305 / 4 * 4) ∧ ∀ v, v ≠ t.val → u.tile v = s.tile v)

/-- TILE_CTL through a port is the steward's: CORE_RUN starts a halted core at address 0, CORE_HALT halts a core, CACHE_INV empties the read cache, CNT_CLR clears the counters at 0x40 to
0x68; of the other port each is counted in OD 0x4200.02 and changes nothing else. -/
def Obligations.TileControlBySteward : Prop :=
  ∀ (s : State) (p : PortId) (t : TileId), s.portUp p = true →
    (p = s.stew.port → (s.core t.val).halted = true → (s.tile t.val).kern.inKernel = false → answers (.coreRun p t) s fun u =>
      (u.core t.val).halted = false ∧ (u.core t.val).pc = 0 ∧ (u.tile t.val).ctl.coreRun = true ∧ (u.core t.val).imem = (s.core t.val).imem ∧ onlyTile s u t.val) ∧
    (p = s.stew.port → answers (.coreHalt p t) s fun u => (u.core t.val).halted = true ∧ (u.tile t.val).ctl.coreRun = false ∧
      (u.tile t.val).sameData (s.tile t.val) ∧ onlyTile s u t.val) ∧
    (p = s.stew.port → answers (.cacheInv p t) s fun u => (u.tile t.val).cache = [] ∧ (u.tile t.val).sameData (s.tile t.val) ∧ onlyTile s u t.val) ∧
    (p = s.stew.port → (s.tile t.val).kern.inKernel = false → answers (.tileCntClr p t) s fun u =>
      (∀ o, 0x40 ≤ o → o ≤ 0x68 → (u.tile t.val).count o = 0) ∧ (∀ o, o < 0x40 → (u.tile t.val).count o = (s.tile t.val).count o) ∧
      (u.tile t.val).sameData (s.tile t.val) ∧ onlyTile s u t.val) ∧
    (p ≠ s.stew.port → ∀ cmd, cmd ∈ [Instr.coreRun p t, .coreHalt p t, .cacheInv p t, .tileCntClr p t] → answers cmd s fun u =>
      u = { s with modCnt := u.modCnt, power := u.power } ∧ SMap.get 0 u.modCnt (odKey 0x4200 2) = satAdd 32 (SMap.get 0 s.modCnt (odKey 0x4200 2)) 1)

/-! ## Registers, mesh, launches (00 R8, 03 R73 to R109, 07 R207, R237 to R240, 10 R319 to R324) -/

/-- Register writes and read-clear reads in their forms. A function block: FN_EVENT_EN takes bits 0 to 6, a 1 written to a bit of FN_EVENT clears it, a read of MBOX_STATUS
clears its overrun. The die control window, through a port or from the die: TILE_FAULT is write-one-to-clear, the steward's alone; a read of a read-clear counter returns and
clears it; nothing mapped ends in Completer Abort, which AER notes. NumVFs is written while VF Enable is 0, and VF Enable makes VFs exist, bounded by 15 and by the port's setting.
Configuration space gives the identity of R318 and holds Device Control 2 and the power state: in D3hot a function's memory is out of reach, and a request to it unsupported
(PCIe's, log 86). A misaligned access, or one of another size
than 4 or 8 bytes, has no effect. -/
def Obligations.RegisterAccesses : Prop :=
  ∀ (s : State) (p : PortId) (v : Word64),
    (∀ f : FnId, s.reach p f.val = true →
      answers (.registerWrite (.block p f 0x10) 4 v) s (fun u => u = { s.setFn p f.val { s.fn p f.val with eventEn := v.toNat % 128 } with power := u.power }) ∧
      answers (.registerWrite (.block p f 8) 4 v) s (fun u =>
        ∀ b, (u.fn p f.val).event.testBit b = ((s.fn p f.val).event.testBit b && !(decide (b < 7) && v.toNat.testBit b))) ∧
      answers (.rcRegisterRead (.block p f 0x408) 4) s (fun u => (u.fn p f.val).mbox = { (s.fn p f.val).mbox with overrun := false } ∧
        u.outbox = .completion p 0 (leBytes 4 (b2n (s.fn p f.val).mbox.busy + 2 * b2n (s.fn p f.val).mbox.overrun + 256 * (s.fn p f.val).mbox.status +
          65536 * (s.fn p f.val).mbox.rlength)) false :: s.outbox)) ∧
    (∀ off n, s.reach p 0 = true → aligned off n = false → answers (.registerWrite (.window p off) n v) s fun u => u = { s with power := u.power }) ∧
    (∀ (f : FnId) off n, s.fnUp p f.val = true → (s.fn p f.val).d3hot = true →
      answers (.registerWrite (.block p f off) n v) s (fun u => u = { s.aer p f.val 20 with power := u.power }) ∧
      answers (.rcRegisterRead (.block p f off) n) s fun u => u = { s.aer p f.val 20 with outbox := .completion p 2 [] false :: s.outbox, power := u.power }) ∧
    (∀ t : TileId, s.reach p 0 = true → answers (.registerWrite (.window p (0x1000 * t.val + 0x18)) 4 v) s fun u =>
      (p = s.stew.port → ∀ b, (u.tile t.val).ctl.fault.testBit b = ((s.tile t.val).ctl.fault.testBit b && !(decide (b < 4) && v.toNat.testBit b))) ∧
      (p ≠ s.stew.port → (u.tile t.val).ctl = (s.tile t.val).ctl ∧ SMap.get 0 u.modCnt (odKey 0x4200 2) = satAdd 32 (SMap.get 0 s.modCnt (odKey 0x4200 2)) 1)) ∧
    (∀ (t : TileId) (off : Nat), s.reach p 0 = true → off = 0x110 ∨ (0x130 ≤ off ∧ off ≤ 0x13C ∧ off % 4 = 0) ∨ off = 0x160 ∨ off = 0x168 →
      answers (.rcRegisterRead (.window p (0x1000 * t.val + off)) 4) s fun u =>
        (u.tile t.val).count off = 0 ∧ u.outbox = .completion p 0 (leBytes 4 ((s.tile t.val).count off)) false :: s.outbox ∧
        ∀ o, o ≠ off → (u.tile t.val).count o = (s.tile t.val).count o) ∧
    (∀ off n, s.reach p 0 = true → aligned off n = false ∨ 0x7000000 ≤ off → answers (.rcRegisterRead (.window p off) n) s fun u =>
      u = { s.setFn p 0 { s.fn p 0 with aer := (s.fn p 0).aer ||| 2 ^ 15 } with outbox := .completion p 1 [] false :: s.outbox, power := u.power }) ∧
    (∀ (id : Nat) (q : Txn) (t : TileId), s.isReady = true → s.ready id (· == .write) = some q → placeOf q.dest.addr = .control (0x1000 * t.val + 0x18) →
      q.data.bytes = leBytes 4 v.toNat → q.status = 0 → answers (.registerWrite (.die id) 4 v) s fun u =>
        (∀ b, (u.tile t.val).ctl.fault.testBit b = ((s.tile t.val).ctl.fault.testBit b && !(decide (b < 4) && v.toNat.testBit b))) ∧ answeredWith u id {} 0) ∧
    (∀ (id : Nat) (q : Txn) (t : TileId), s.isReady = true → s.ready id (· == .read) = some q → placeOf q.dest.addr = .control (0x1000 * t.val + 0x160) →
      q.len = 4 → q.status = 0 → answers (.rcRegisterRead (.die id) 4) s fun u =>
        (u.tile t.val).count 0x160 = 0 ∧ answeredWith u id ⟨leBytes 4 ((s.tile t.val).count 0x160), false⟩ 0) ∧
    (s.fnUp p 0 = true →
      ((s.port p).vfEnable = false → answers (.registerWrite (.config p 0 0x150) 4 v) s fun u =>
        u = { s.setPort p { s.port p with vfNum := v.toNat % 65536 } with power := u.power }) ∧
      answers (.registerWrite (.config p 0 0x148) 4 v) s (fun u =>
        (u.port p).numVfs = (if v.toNat.testBit 0 then min (s.port p).vfNum (min 15 ((s.port p).trained.getD 3 15)) else 0) ∧
        (∀ f, (u.fn p f).qBase = (s.fn p f).qBase ∧ (u.fn p f).qCount = (s.fn p f).qCount) ∧ (u.port (!p)).numVfs = (s.port (!p)).numVfs) ∧
      answers (.rcRegisterRead (.config p 0 0x150) 4) s fun u => u = { s with outbox := .completion p 0 (leBytes 4 (s.port p).vfNum) false :: s.outbox, power := u.power }) ∧
    (∀ f : FnId, s.fnUp p f.val = true →
      answers (.registerWrite (.config p f 0x98) 4 v) s (fun u => u = { s.setFn p f.val { s.fn p f.val with devCtl2 := v.toNat % 32 + 4096 * bits v.toNat 12 1 } with power := u.power }) ∧
      (v.toNat % 4 = 3 → answers (.registerWrite (.config p f 0x44) 4 v) s fun u =>
        u = { s.setFn p f.val { s.fn p f.val with d3hot := true } with power := u.power } ∧ u.reach p f.val = false) ∧
      answers (.rcRegisterRead (.config p f 0x98) 4) s (fun u => u = { s with outbox := .completion p 0 (leBytes 4 (s.fn p f.val).devCtl2) false :: s.outbox, power := u.power }) ∧
      answers (.rcRegisterRead (.config p f 0) 4) s (fun u => u = { s with
        outbox := .completion p 0 (leBytes 4 (0x1F5B + 2 ^ 16 * (if f.val = 0 then 0x8812 else 0x8813))) false :: s.outbox, power := u.power }) ∧
      answers (.rcRegisterRead (.config p f 8) 4) s fun u => u = { s with
        outbox := .completion p 0 (leBytes 4 (0xB0 + 2 ^ 8 * 0x120000)) false :: s.outbox, power := u.power })

/-- A single access's way over the mesh: it enters in its agent's turn, or is refused UNMAPPED at the injection port and counted; it arrives behind those before it, or its
packet is lost to a bad header with an event, or its data poisoned by a bad word, at a router on the way that goes first along x and then along y; a fetched line brings its operation what it asked
for, and fills the reader's cache where it is still fresh; a read of another tile's scratchpad is served by that tile's remote port. No data of the device changes on the way. -/
def Obligations.MeshAccessesTravel : Prop :=
  ∀ (s : State) (id : Nat) (q : Txn), s.isReady = true → s.txn? id = some q →
    (s.injectable q = true → s.inTurn q.agent [id] = true → answers (.meshPacketInject [id]) s fun u => sameMemory s u ∧ ∃ l : List Txn,
      l.map (·.id) = (s.txns.filter (·.id != id)).map (·.id) ∧ (q.kind = .read → l = s.txns.filter (·.id != id)) ∧
      (q.dest.module.isNone = true → s.unmapped q = true →
        u.txns = l ++ [{ q with stage := .responding, status := 1, pkt := id + 1, data := ⟨noData (if q.fill then 64 else q.len), true⟩ }] ∧
        SMap.get 0 u.modCnt (odKey 0x7209 1) = satAdd 32 (SMap.get 0 s.modCnt (odKey 0x7209 1)) 1) ∧
      (q.dest.module.isNone = true → s.unmapped q = false → u.txns = l ++ [{ q with stage := .flying, pkt := id + 1 }] ∧ u.modCnt = s.modCnt) ∧
      (∀ m, q.dest.module = some m → u.txns = l ++ [{ q with stage := .flying, pkt := id + 1, via := s.outPort m }] ∧ u.modCnt = s.modCnt)) ∧
    (aheadOf s.txns q = false → partial? s.txns q = false → s.copyPoor q = false →
      (∀ r, r < 128 → onPath q.route.2.1 q.route.2.2 (r % 16, r / 16) = true → q.stage = .flying ∨ q.stage = .responding → s.log.intake.length < 64 →
        s.power.isolated = false → answers (.meshPacketArrive id (some (.header r))) s fun u => sameMemory s u ∧
          u.txns = (s.txns.filter fun x => !(x.stage == q.stage && x.pkt == q.pkt)) ∧ u.totals.meshLost = inc32 s.totals.meshLost ∧
          ∃ c, c < 3 ∧ u.log.intake = s.log.intake ++ [{ code := 0x33, source := r, args := [r, c], time := s.ts, step := s.laurel.step.num }]) ∧
      (∀ r, onPath q.route.2.1 q.route.2.2 (r % 16, r / 16) = false → answers (.meshPacketArrive id (some (.header r))) s fun u => u = { s with power := u.power }) ∧
      ((s.txns.filter fun x => x.stage == q.stage && x.pkt == q.pkt).map (·.id) = [id] →
        (q.stage = .flying → q.dest.module = none → answers (.meshPacketArrive id none) s fun u =>
          u = { s with txns := s.txns.filter (·.id != id) ++ [{ q with stage := .atHome }], power := u.power }) ∧
        (q.stage = .flying → q.kind = .write → q.dest.module = none → answers (.meshPacketArrive id (some (.payload id))) s fun u =>
          u.txns = s.txns.filter (·.id != id) ++ [{ q with stage := .atHome, data := { q.data with poison := true } }] ∧
          u.totals.parity = satAdd 32 s.totals.parity 1 ∧ sameMemory s u) ∧
        (∀ t e i, q.stage = .responding → q.purpose = .desc t e i → (s.tile t.val).awaits e i = true → answers (.meshPacketArrive id none) s fun u =>
          u = { s with txns := s.txns.filter (·.id != id) ++ [{ q with stage := .returned }], power := u.power }) ∧
        (∀ (t : TileId) (op : Nat) (o : OpRec), q.stage = .responding → q.purpose = .outbound t op →
          (s.tile t.val).ops.find? (·.id == op) = some o → answers (.meshPacketArrive id none) s fun u =>
            u.txns = s.txns.filter (·.id != id) ∧ ∀ y, (u.tile t.val).ops.find? (·.id == op) = some y → y.acks = o.acks - 1))) ∧
    (∀ t : TileId, q.stage = .returned → q.fill = true → q.tile? = some t.val →
      (∀ x ∈ s.txns.takeWhile (·.id != id), x.stage = .returned → x.fill = true → x.tile? = some t.val → x.dest.addr / 64 ≠ q.dest.addr / 64) →
      answers (.cacheFill t id) s fun u => sameMemory s u ∧ u.txns = s.txns.filter (·.id != id) ∧
        (q.fresh (s.tile t.val) = true →
          (∃ k l, (u.tile t.val).cacheFind (q.dest.addr / 64) = some (k, l) ∧ l.data = padTo 64 q.data.bytes ∧ l.unchecked = q.unchecked ∧ l.err = 0) ∧
          ∀ g, g % 256 ≠ q.dest.addr / 64 % 256 → (u.tile t.val).cacheFind g = (s.tile t.val).cacheFind g) ∧
        (q.fresh (s.tile t.val) = false → (u.tile t.val).cache = (s.tile t.val).cache) ∧
        (∀ v, v ≠ t.val → u.tile v = s.tile v) ∧
        (∀ op j o n, q.purpose = .inbound t op [(j, 0)] → (s.tile t.val).ops.find? (·.id == op) = some o → o.grains[j]? = some n → 0 < n.missing → n.data.bytes.length = 64 →
          q.len = 64 → q.dest.addr % 64 = 0 → q.data.bytes.length = 64 → q.data.poison = false →
          ∃ o' n', (u.tile t.val).ops.find? (·.id == op) = some o' ∧ o'.grains[j]? = some n' ∧ n'.data.bytes = q.data.bytes ∧ n'.missing = n.missing - 1)) ∧
    (∀ (t : TileId) (off : Nat), s.ready id (fun _ => true) = some q → q.kind = .read → placeOf q.dest.addr = .scratch t.val off →
      s.portTakes t.val q (bankOf (off / 64)) = true → (s.tile t.val).cleanGrain (off / 64) → off % 64 + q.len ≤ 64 → q.acq = none → q.status = 0 →
      answers (.remotePortGrant t id) s fun u => sameMemory s u ∧ (u.tile t.val).remoteUse = some (bankOf (off / 64)) ∧
        answeredWith u id ⟨(s.tile t.val).scratch.read off q.len, false⟩ 0)

/-- One beat of an arbiter, for requesters of its own that need no tokens and withdraw nothing: exactly one is granted; every other waits one beat longer; with the starvation count
short of N the one granted stands no lower than any other in class and priority, and at N it is one that has been eligible longest. A refill adds RATE × 0.04 bytes to each bucket of
its partition up to BURST, at the dictionary's settings, in the model's unit of 1/25 byte (log 13). -/
def Obligations.ArbitersAndBuckets : Prop :=
  (∀ (s : State) (a : Nat) (rs : List ArbIn), s.isReady = true → rs ≠ [] → (rs.map (·.req)).Nodup →
    (∀ i ∈ rs, i.part = none ∧ i.withdrawn = false ∧ i.req < 8 ∧ arbHas a i.req = true) → answers (.arbiterGrant a rs) s fun u =>
      u = { s with arbs := u.arbs, power := u.power } ∧ (∀ b, b ≠ a → u.arb b = s.arb b) ∧
      ∃ i ∈ rs, (u.arb a).last = i.req ∧ ((u.arb a).req i.req).grants = add64 ((s.arb a).req i.req).grants 1 ∧ ((u.arb a).req i.req).waiting = 0 ∧
        (∀ j ∈ rs, j.req ≠ i.req → ((u.arb a).req j.req).waiting = ((s.arb a).req j.req).waiting + 1 ∧
          ((u.arb a).req j.req).grants = ((s.arb a).req j.req).grants ∧ ((u.arb a).req j.req).requesting = true) ∧
        ((s.arb a).since + 1 < s.arbN a → ∀ j ∈ rs, 4 * arbRank a j + s.arbPrio a j.req ≤ 4 * arbRank a i + s.arbPrio a i.req) ∧
        (s.arbN a ≤ (s.arb a).since + 1 → ∀ j ∈ rs, ((s.arb a).req j.req).eligible ≤ ((s.arb a).req i.req).eligible)) ∧
  (∀ (s : State) (p : PartId), s.isReady = true → answers (.bucketRefill p) s fun u =>
    u = { s with buckets := u.buckets, regNow := u.regNow, power := u.power } ∧ (∀ o i, o ≠ p.val → i < 24 → o < 16 → u.tokens o i = s.tokens o i) ∧
    ∀ i sub, (i < 8 ∧ sub = 2) ∨ (8 ≤ i ∧ i < 16 ∧ sub = 4) ∨ (16 ≤ i ∧ i < 18 ∧ sub = 6) ∨ (18 ≤ i ∧ i < 20 ∧ sub = 9) ∨ (20 ≤ i ∧ i < 24 ∧ sub = 0xC) →
      u.tokens p.val i = min (s.tokens p.val i + (s.odv (0x5200 + p.val) sub : Int)) (25600 * (s.odv (0x5200 + p.val) (sub + 1) : Int)))

/-- Launches on their way to tiles: a launch packet, behind those of its launcher, takes one of its sequencer's four places, or waits for one; a fetched grain's words enter the stream's buffer in place; a broadcast word reaches
every tile the mask names at once, marked START when it is the first and LAST when it is the last, and no other tile. -/
def Obligations.LaunchesReachTiles : Prop :=
  ∀ (s : State) (h : HedgeId), s.isReady = true →
    (∀ l p, s.launchPkts.find? (fun x => x.launch == l && x.hedge == h) = some p →
      (∀ x ∈ s.launchPkts.takeWhile (fun x => !(x.launch == l && x.hedge == h)), x.hedge = h → s.launchFrom x.launch ≠ s.launchFrom l) →
      answers (.launchPacket l h) s fun u =>
      u.launchPkts = s.launchPkts.filter (fun x => !(x.launch == l && x.hedge == h)) ∧ u.tiles = s.tiles ∧
      ((s.hedge h.val).waiting = [] → (s.hedge h.val).streams.length < 4 → (u.hedge h.val).waiting = [] ∧
        (u.hedge h.val).streams.map (·.launch) = (s.hedge h.val).streams.map (·.launch) ++ [p.launch] ∧
        ∃ x ∈ (u.hedge h.val).streams, x.launch = p.launch ∧ x.mask = p.mask ∧ x.kernelId = p.kernelId ∧ x.next = 0 ∧ x.words = p.words ∧
          x.held = p.carried.zipIdx.map fun y => (y.2, y.1.1, y.1.2)) ∧
      ((s.hedge h.val).streams.length = 4 → (u.hedge h.val).waiting = (s.hedge h.val).waiting ++ [p] ∧
        (u.hedge h.val).streams.map (·.launch) = (s.hedge h.val).streams.map (·.launch))) ∧
    (∀ id q l off x, s.txn? id = some q → q.purpose = .stream h l off → q.stage = .returned → q.data.poison = false → q.status = 0 →
      (s.hedge h.val).streams.find? (·.launch == l) = some x → (∀ y ∈ (s.hedge h.val).streams, y.launch = l → y = x) →
      answers (.streamFetchReturn id []) s fun u =>
        u.txns = s.txns.filter (·.id != id) ∧ u.tiles = s.tiles ∧
        ∃ y ∈ (u.hedge h.val).streams, y.launch = l ∧ y.next = x.next ∧ y.fetching = x.fetching.filter (· != off) ∧
          y.held = x.held ++ ((List.range 8).filter fun i => decide (off + i < x.words)).map fun i => (off + i, fieldAt q.data.bytes (8 * i) 8, false)) ∧
    (∀ x r n v, (s.hedge h.val).streams = x :: r → x.held.find? (·.1 == x.next) = some (n, v, false) →
      (∀ i, i < 16 → x.mask.testBit i = true → s.endedIn x.launch (tileOf h.val i) = false ∧ (s.tile (tileOf h.val i)).fifo.length < 32 ∧
        (s.tile (tileOf h.val i)).core.halted = false) →
      answers (.broadcastWord h x.launch []) s fun u =>
        (∀ i, i < 16 → x.mask.testBit i = true → u.tile (tileOf h.val i) = { s.tile (tileOf h.val i) with
          fifo := (s.tile (tileOf h.val i)).fifo ++ [⟨v, x.next == 0, decide (x.words ≤ x.next + 1), false, x.kernelId, x.launch⟩] }) ∧
        (∀ t, (∀ i, i < 16 → x.mask.testBit i = true → t ≠ tileOf h.val i) → u.tile t = s.tile t) ∧
        (x.next + 1 < x.words → ∃ y ∈ (u.hedge h.val).streams, y.launch = x.launch ∧ y.next = x.next + 1) ∧
        (x.words ≤ x.next + 1 → r = [] → (s.hedge h.val).waiting = [] → (u.hedge h.val).streams = []))

/-! ## Memory (07 R211 to R236, 08 R278 to R281, 09 R285 to R308) -/

/-- Accesses at their home in a tier, in a Sealed page in service with sound words: a read is answered with the bytes that stand there and changes none; a write replaces its bytes alone, and stores
its grain as two poison words where its data is poisoned, and is acknowledged; an atomic is answered with the old bytes and leaves their combination, element by element. (Each when
its regulator and the scheduler of its pseudo-channel let it, 07 R239, 08 R260.) -/
def Obligations.HomesServeAccesses : Prop :=
  ∀ (s : State) (id : Nat) (q : Txn) (k off : Nat), placeOf q.dest.addr = .tier k off → soundGrain s k (off / 64) → q.status = 0 →
    (s.ready id (· == .read) = some q → s.served? q k off false = true → q.fill = false → q.acq = none → off % 64 + q.len ≤ 64 → answers (.homeRead id {}) s fun u =>
      sameMemory s u ∧ answeredWith u id ⟨(s.tier k).bytes off q.len, false⟩ 0) ∧
    (s.ready id (· == .write) = some q → s.served? q k off false = true → off % 64 + q.data.bytes.length ≤ 64 → q.data.bytes ≠ [] → answers (.homeWrite id {}) s fun u =>
      (∀ t, u.tile t = s.tile t) ∧ (u.tier k).bytes off q.data.bytes.length = q.data.bytes ∧ answeredWith u id {} 0 ∧
      (∀ j a, j ≠ k ∨ a < off ∨ off + q.data.bytes.length ≤ a → (u.tier j).byte a = (s.tier j).byte a) ∧
      (q.data.poison = false → ∀ w, off ≤ 32 * w + 31 → 32 * w < off + q.data.bytes.length → (u.tier k).word k w = { mode := .sealed }) ∧
      (q.data.poison = true → ∀ w, w / 2 = off / 64 → (u.tier k).word k w = { mode := .poison })) ∧
    (∀ c, s.ready id (fun x => match x with | .combine _ => true | _ => false) = some q → s.served? q k off true = true → q.kind = .combine c →
      q.data.poison = false → q.rel = none →
      off % 64 + q.data.bytes.length ≤ 64 → q.data.bytes ≠ [] → q.data.bytes.length % 4 = 0 → answers (.homeAtomic id {}) s fun u =>
        answeredWith u id ⟨(s.tier k).bytes off q.data.bytes.length, false⟩ 0 ∧
        (u.tier k).bytes off q.data.bytes.length = combineBytes c q.data.bytes ((s.tier k).bytes off q.data.bytes.length) ∧
        (∀ j a, j ≠ k ∨ a < off ∨ off + q.data.bytes.length ≤ a → (u.tier j).byte a = (s.tier j).byte a) ∧ ∀ t, u.tile t = s.tile t)

/-- What memory does by itself: the patrol, once its interval is due and neither an atomic nor a refresh at its limit goes first, checks a grain, writes back a corrected word of a Sealed page, and moves on, past board-tier pages
without metadata; a due refresh is performed at once, or postponed at most four intervals while its bank is one that a unit's command has open or activates next, and then makes the unit
pause; a pause's end performs the refreshes of those banks, closes the unit's rows and is recorded; a conversion re-encodes a grain with its data, or fills it with zeros. -/
def Obligations.MemoryTendsItself : Prop :=
  (∀ (s : State) (k : TierId) (g page : Nat), s.isReady = true → g = (s.tier k.val).scrubAt → page = g / 32768 →
    (s.tier k.val).scrubDue (s.odv 0x9200 2) s.ts = true → s.atomicWaits k.val (pchOf (64 * g)) = false → s.refreshFirst k.val (64 * g) = false →
    ((s.tier k.val).mode k.val page = .sealed → g % 32768 + 1 < 32768 → g + 1 < tierPages k.val * 32768 →
      (∀ i, i < 2 → ((s.tier k.val).word k.val (2 * g + i)).mode = .sealed ∧ symbolsHit ((s.tier k.val).word k.val (2 * g + i)).flips ≤ 1) →
      answers (.scrubGrain k {}) s fun u => sameMemory s u ∧ (u.tier k.val).scrubAt = g + 1 ∧
        ∀ i, i < 2 → (u.tier k.val).word k.val (2 * g + i) =
          (if symbolsHit ((s.tier k.val).word k.val (2 * g + i)).flips = 1 then { mode := .sealed } else (s.tier k.val).word k.val (2 * g + i))) ∧
    ((s.tier k.val).mode k.val page = .plain ∨ (s.tier k.val).mode k.val page = .check → page + 1 < tierPages k.val →
      (s.tier k.val).scrubFixed ≤ s.odv 0x9200 1 → answers (.scrubGrain k {}) s fun u =>
        sameMemory s u ∧ (u.tier k.val).scrubAt = (page + 1) * 32768 ∧ (u.tier k.val).pages = (s.tier k.val).pages)) ∧
  (∀ (s : State) (k : StackId) (p : Fin 64) (i : Fin 4) (c : Fin 16) (u : UnitId) (b n : Nat), s.isReady = true → u.val = 64 * k.val + p.val → b = 16 * i.val + c.val → n = SMap.get 0 (s.tier (u.val / 64)).refresh (64 * (u.val % 64) + b) →
    ((s.unit u.val).running = none → answers (.refresh k p i c) s fun t =>
      sameMemory s t ∧ SMap.get 0 (t.tier (u.val / 64)).refresh (64 * (u.val % 64) + b) = 0 ∧ t.units = s.units) ∧
    (∀ r, (s.unit u.val).running = some r → r.computed = false → r.paused = false →
      (r.next ≠ some b → r.rows.keys.contains b = false → answers (.refresh k p i c) s fun t =>
        sameMemory s t ∧ SMap.get 0 (t.tier (u.val / 64)).refresh (64 * (u.val % 64) + b) = 0 ∧ t.units = s.units) ∧
      (r.next = some b ∨ r.rows.keys.contains b = true → n < 4 → answers (.refresh k p i c) s fun t =>
        sameMemory s t ∧ SMap.get 0 (t.tier (u.val / 64)).refresh (64 * (u.val % 64) + b) = n + 1 ∧ t.units = s.units) ∧
      (r.next = some b ∨ r.rows.keys.contains b = true → 4 ≤ n → answers (.refresh k p i c) s fun t => sameMemory s t ∧
        (t.unit u.val).running = some { r with paused := true, pausedAt := s.ts, yields := min (r.yields + 1) 0xFFFF })) ∧
    (∀ r m, (s.unit u.val).running = some r → r.paused = true → answers (.pauseEnd u m) s fun t =>
      sameMemory s t ∧ (t.unit u.val).running = some { r with
        paused := false, pauseBeats := satAdd 32 r.pauseBeats m, pauseNs := r.pauseNs + (s.ts - r.pausedAt), rows := [], acts := some 0 } ∧
      (r.next = some b ∨ r.rows.keys.contains b = true → SMap.get 0 (t.tier (u.val / 64)).refresh (64 * (u.val % 64) + b) = 0) ∧
      (t.unit u.val).pauseLongest = min (max (s.unit u.val).pauseLongest m) (2 ^ 32 - 1))) ∧
  (∀ (s : State) (k : TierId) (c : Conv) (g : Nat), s.isReady = true → (s.tier k.val).conv = some c → g = c.page * 32768 + c.grain → c.grain + 1 < 32768 →
    s.atomicWaits k.val (pchOf (s.tier k.val).convAt) = false → s.refreshFirst k.val (s.tier k.val).convAt = false →
    (s.tier k.val).page c.page = 0 → k.val ≠ 8 ∨ (c.page - (SMap.get ({} : Region) (s.tier k.val).entries c.entry).base) % 9 ≠ 8 →
    (c.fill = false → (∀ i, i < 2 → (s.tier k.val).word k.val (2 * g + i) = { mode := if c.toSealed then .open else .sealed }) →
      answers (.regionConversionGrain k {}) s fun u => sameMemory s u ∧ (u.tier k.val).conv = some { c with grain := c.grain + 1 } ∧
        ∀ i, i < 2 → (u.tier k.val).word k.val (2 * g + i) = { mode := if c.toSealed then .sealed else .open }) ∧
    (c.fill = true → answers (.regionConversionGrain k {}) s fun u => (u.tier k.val).bytes (64 * g) 64 = zeros 64 ∧
      (u.tier k.val).conv = some { c with grain := c.grain + 1 } ∧ (∀ i, i < 2 → (u.tier k.val).word k.val (2 * g + i) = { mode := .sealed }) ∧
      ∀ j a, j ≠ k.val ∨ a < 64 * g ∨ 64 * g + 64 ≤ a → (u.tier j).byte a = (s.tier j).byte a))

/-- Region and page commands through a port: the steward's are checked when written. A region command found sound is pending for the next boundary and changes no entry yet; one on a busy table,
on an entry in the wrong state, or by another port is refused by its code. BLIGHT takes a page out of service, RESTORE makes a repaired page writable, RETURN brings it back; other moves change no page. -/
def Obligations.RegionAndPageCommands : Prop :=
  ∀ (s : State) (p : PortId) (k : TierId) (e b l : Nat) (x : Tier) (r : Region), s.portUp p = true → x = s.tier k.val → r = SMap.get ({} : Region) x.entries e →
    (∀ c ∈ [Instr.defineRegion p k e b l, .removeRegion p k e b l, .resealRegion p k e b l, .unsealRegion p k e b l], answers c s fun u =>
      u = { s with tiers := u.tiers, power := u.power } ∧ (∀ j, j ≠ k.val → u.tier j = s.tier j) ∧ (u.tier k.val).entries = x.entries ∧
      (u.tier k.val).mem = x.mem ∧ (u.tier k.val).words = x.words ∧ ((u.tier k.val).result ≠ 0 → (u.tier k.val).pending = x.pending) ∧
      (p ≠ s.stew.port → (u.tier k.val).result = 6) ∧
      (p = s.stew.port → k.val < 8 → x.pending.isSome = true ∨ x.conv.isSome = true → (u.tier k.val).result = 1)) ∧
    (p = s.stew.port → x.pending = none → x.conv = none → e < 32 →
      answers (.defineRegion p k e b l) s (fun u =>
        (r.valid = true → (u.tier k.val).result = 3) ∧
        (r.valid = false → l < b ∨ tierPages k.val ≤ l → (u.tier k.val).result = 4) ∧
        (r.valid = false → b ≤ l → l < tierPages k.val → k.val < 8 → (∀ i, i < 32 → (SMap.get ({} : Region) x.entries i).valid = true →
          l < (SMap.get ({} : Region) x.entries i).base ∨ (SMap.get ({} : Region) x.entries i).limit < b) →
          (u.tier k.val).result = 0 ∧ (u.tier k.val).pending = some ⟨1, e, b, l⟩)) ∧
      answers (.removeRegion p k e b l) s (fun u =>
        (r.valid = true → r.isSealed = true → (u.tier k.val).result = 0 ∧ (u.tier k.val).pending = some ⟨2, e, b, l⟩) ∧
        (r.valid = false ∨ (k.val < 8 ∧ r.isSealed = false) → (u.tier k.val).result = 3)) ∧
      answers (.resealRegion p k e b l) s (fun u => (k.val = 8 → (u.tier k.val).result = 7) ∧
        (k.val < 8 → r.valid = true → r.isSealed = false → (u.tier k.val).result = 0 ∧ (u.tier k.val).pending = some ⟨3, e, b, l⟩) ∧
        (k.val < 8 → r.valid = false ∨ r.isSealed = true → (u.tier k.val).result = 3)) ∧
      answers (.unsealRegion p k e b l) s (fun u => (k.val = 8 → (u.tier k.val).result = 7) ∧
        (k.val < 8 → r.valid = true → r.isSealed = true → (u.tier k.val).result = 0 ∧ (u.tier k.val).pending = some ⟨4, e, b, l⟩) ∧
        (k.val < 8 → r.valid = false ∨ r.isSealed = false → (u.tier k.val).result = 3))) ∧
    (∀ page, (∀ c ∈ [Instr.blightPage p k page, .restorePage p k page, .returnPage p k page], answers c s fun u =>
        (p ≠ s.stew.port → (u.tier k.val).pageResult = 3 ∧ (u.tier k.val).pages = x.pages) ∧
        (p = s.stew.port → tierPages k.val ≤ page → (u.tier k.val).pageResult = 2 ∧ (u.tier k.val).pages = x.pages)) ∧
      (p = s.stew.port → page < tierPages k.val →
        answers (.blightPage p k page) s (fun u => (x.page page = 0 ∨ x.page page = 3 → (u.tier k.val).pageResult = 0 ∧ (u.tier k.val).page page = 1) ∧
          (x.page page = 1 ∨ x.page page = 2 → (u.tier k.val).pageResult = 1 ∧ (u.tier k.val).pages = x.pages)) ∧
        answers (.restorePage p k page) s (fun u => (x.page page = 2 → (u.tier k.val).pageResult = 0 ∧ (u.tier k.val).page page = 3) ∧
          (x.page page = 0 ∨ x.page page = 3 → (u.tier k.val).pageResult = 1 ∧ (u.tier k.val).pages = x.pages)) ∧
        answers (.returnPage p k page) s (fun u => (x.page page = 3 → (u.tier k.val).pageResult = 0 ∧ (u.tier k.val).page page = 0) ∧
          (x.page page ≠ 3 → (u.tier k.val).pageResult = 1 ∧ (u.tier k.val).pages = x.pages))))

/-! ## Privet units (08 R242 to R283) -/

/-- A unit's commands come and go in order: a command grain is taken, acknowledged, and started where the unit is idle; with eight waiting, or a load in progress, it waits at the port, and a
micro-program waits in the queue until the store's CRC is in. A command whose writes are all acknowledged completes with its status in the last-command registers, a notice where it is a
fault, and the next one starts; one with bad parity or a Reserved primitive ends with BAD_COMMAND; one past the time limit, waiting for acknowledgements or not, ends with status 7, or with
3 where the checks refuse it and 4 where it has met poison before, the lowest code that applies. -/
def Obligations.PrivetCommandsComeAndGo : Prop :=
  ∀ (s : State) (u : UnitId) (x : Machine.PUnit), s.isReady = true → x = s.unit u.val →
    (∀ id q c, s.grainAt id = some (q, u.val) → q.status = 0 → c = (⟨cmdWithPart q.data.bytes q.part, q.data.poison⟩ : UCmd) →
      (x.load = true ∨ 8 ≤ x.queue.length → answers (.privetCommandAccept id false) s fun t => t = { s with power := t.power }) ∧
      (x.load = false → x.queue.length < 8 → answers (.privetCommandAccept id false) s fun t => answeredWith t id {} 0 ∧ sameMemory s t ∧
        (∀ v, v ≠ u.val → t.unit v = s.unit v) ∧
        (x.running = none → x.queue = [] → c.prim ≠ 0 ∨ x.crcValid = true →
          (t.unit u.val).queue = [] ∧ (t.unit u.val).running = some (c.run (s.unitTs u.val))) ∧
        (x.running = none → x.queue = [] → c.prim = 0 → x.crcValid = false → (t.unit u.val).queue = [c] ∧ (t.unit u.val).running = none) ∧
        (∀ r, x.running = some r → (t.unit u.val).running = some r ∧ (t.unit u.val).queue = x.queue ++ [c]))) ∧
    (∀ r m, x.running = some r → r.computed = true → r.acks = 0 → s.overTime u.val r = false → answers (.privetCommandComplete u m) s fun t => sameMemory s t ∧
      (t.unit u.val).lastStatus = r.status ∧ (t.unit u.val).lastTag = r.cmd.tag ∧ (t.unit u.val).lastRecord = r.record ∧
      SMap.get 0 (t.unit u.val).cnt 0xC0 = satAdd 32 (SMap.get 0 x.cnt 0xC0) 1 ∧
      (x.queue = [] → (t.unit u.val).running = none) ∧
      (∀ c l, x.queue = c :: l → x.load = false → c.prim ≠ 0 ∨ x.crcValid = true →
        (t.unit u.val).running = some (c.run (s.unitTs u.val)) ∧ (t.unit u.val).queue = l) ∧
      (r.status = 0 ∨ r.status = 8 → t.unitNotices = s.unitNotices) ∧
      (r.status ≠ 0 → r.status ≠ 8 → t.unitNotices = s.unitNotices ++ [(u.val, r.status, r.cmd.tag, r.cmd.part)])) ∧
    (∀ r m, x.running = some r → r.computed = true → r.acks = 0 → r.status = 0 → s.overTime u.val r = true → answers (.privetCommandComplete u m) s fun t => sameMemory s t ∧
      (t.unit u.val).lastStatus = 7 ∧ (t.unit u.val).lastTag = r.cmd.tag ∧ t.unitNotices = s.unitNotices ++ [(u.val, 7, r.cmd.tag, r.cmd.part)]) ∧
    (∀ r m, x.running = some r → r.computed = false → r.cmd.bad = true ∨ 6 < r.cmd.prim → r.cmd.resultEn = false → r.cmd.tallyEn = false →
      answers (.privetCommandComplete u m) s fun t => sameMemory s t ∧ (t.unit u.val).lastStatus = 3 ∧ (t.unit u.val).lastTag = r.cmd.tag ∧ t.txns = s.txns ∧
        (x.queue = [] → (t.unit u.val).running = none)) ∧
    (∀ r m, x.running = some r → r.paused = false →
      (s.overTime u.val r = true → answers (.privetTimeLimit u m) s fun t => sameMemory s t ∧ ∃ r', (t.unit u.val).running = some r' ∧ r'.computed = true ∧
        r'.cmd = r.cmd ∧ r'.status = (if r.computed then (if r.status = 0 then 7 else r.status) else if r.cmd.fault.isSome then 3 else if r.acc.pois then 4 else 7)) ∧
      (s.overTime u.val r = false → answers (.privetTimeLimit u m) s fun t => t = { s with power := t.power }))

/-- The work of a command's seven rows: parameters that the checks refuse end it with BAD_COMMAND; a size of zero ends it with status 0 and no result; without tokens it waits; once its accesses
are made its result stands in the unit's buffer at OUT_OFF, and its status says whether poison was met. COPY moves whole words between an Open range of the unit's memory and its buffer. A
micro-program goes on word by word: past word 1,023 or with a fifth loop it ends with PROGRAM_FAULT, at a word that cannot be corrected with STORE_UNCORR, else as its word acts. -/
def Obligations.PrivetWorkEnds : Prop :=
  ∀ (s : State) (u : UnitId) (i : UnitIn) (r : URun) (x : Machine.PUnit), s.isReady = true → x = s.unit u.val → x.running = some r → r.computed = false →
    r.paused = false → r.cmd.bad = false → s.overTime u.val r = false → i.upsets = [] → i.bufErrs = [] →
    (∀ n c l, (n, c) ∈ [(1, Instr.mv u i), (2, .attend u i), (3, .segred u i), (4, .privetGather u i), (5, .member u i), (6, .privetCopy u i)] → r.cmd.prim = n →
      l = ((s.primWork u.val r none).prim n r.cmd.bf r.cmd.rz r.cmd.params).2.trace.reverse →
      (∀ g, r.cmd.refused = some g → answers c s fun t => sameMemory s t ∧ ∃ r', (t.unit u.val).running = some r' ∧ r'.computed = true ∧ r'.status = 3) ∧
      (r.cmd.refused = none → primEmpty n r.cmd.params = true → answers c s fun t => sameMemory s t ∧ (t.unit u.val).buffer = x.buffer ∧
        ∃ r', (t.unit u.val).running = some r' ∧ r'.computed = true ∧ r'.status = 0) ∧
      (r.cmd.refused = none → primEmpty n r.cmd.params = false → r.made = 0 → r.past = [] → l ≠ [] → i.accesses = none → s.unitPoor u.val r.cmd.part = true →
        0 < s.unitTurns u.val l.length → x.bufWords = [] → answers c s fun t => sameMemory s t ∧ (t.unit u.val).tokenWait = true ∧
          (t.unit u.val).buffer = x.buffer ∧ ∃ r', (t.unit u.val).running = some r' ∧ r'.computed = false ∧ r'.made = r.made) ∧
      (r.cmd.refused = none → primEmpty n r.cmd.params = false →
        ∀ s1 r1 q w, s1 = (if l.isEmpty then s else s.unitGo u.val r i l) → (s1.unit u.val).running = some r1 → r1.paused = false → r1.made = l.length →
          (q, w) = (s1.primWork u.val r none).prim n r.cmd.bf r.cmd.rz r.cmd.params → w.stop = 0 → w.t.blights = [] →
          answers c s fun t => (∃ r', (t.unit u.val).running = some r' ∧ r'.computed = true ∧ r'.status = if w.pois then 4 else 0) ∧
            (n ≠ 6 → r.cmd.inBuffer (q.length / 64) = true → q.length % 64 = 0 → (t.unit u.val).buffer.read r.cmd.outOff q.length = pdata q))) ∧
    (∀ a o n, r.cmd.prim = 6 → r.cmd.refused = none → i.accesses = none → r.made = 0 → r.past = [] → s.regOn r.cmd.part (8 + u.val / 64) = false →
      (∀ m, s.unitTurns u.val m = m) → (∀ b, b < 64 → SMap.get 0 (s.tier (u.val / 64)).refresh (64 * (u.val % 64) + b) = 0) →
      a = prm r.cmd.params 0 0 25 → o = prm r.cmd.params 0 26 11 →
      n = prm r.cmd.params 0 37 12 → 0 < n → (∀ j, j < n → (s.tier (u.val / 64)).unitMay ((a + j) / 1024) = true ∧
        (s.tier (u.val / 64)).word (u.val / 64) (unitOff (u.val % 64) (32 * (a + j)) / 32) = { mode := .open }) →
      (prm r.cmd.params 0 25 1 = 0 → answers (.privetCopy u i) s fun t => ∀ b, b < 32 * n →
        SMap.get 0#8 (t.unit u.val).buffer (32 * o + b) = (s.tier (u.val / 64)).byte (unitOff (u.val % 64) (32 * a + b))) ∧
      (prm r.cmd.params 0 25 1 = 1 → x.bufWords = [] → answers (.privetCopy u i) s fun t => ∀ b, b < 32 * n →
        (t.tier (u.val / 64)).byte (unitOff (u.val % 64) (32 * a + b)) = SMap.get 0#8 x.buffer (32 * o + b))) ∧
    (∀ m : MicroIn, r.cmd.prim = 0 → r.cmd.resultEn = false → r.cmd.tallyEn = false → m.words = 1 →
      (1024 ≤ r.micro.pc → r.acc.pois = false → answers (.microProgram u m i) s fun t =>
        sameMemory s t ∧ ∃ r', (t.unit u.val).running = some r' ∧ r'.computed = true ∧ r'.status = 6) ∧
      (r.micro.pc < 1024 → (r.micro.pc, false) ∈ m.errs → r.acc.pois = false → answers (.microProgram u m i) s fun t =>
        sameMemory s t ∧ ∃ r', (t.unit u.val).running = some r' ∧ r'.computed = true ∧ r'.status = 5) ∧
      (r.micro.pc < 1024 → m.errs = [] → answers (.microProgram u m i) s fun t =>
        (∀ regs next, Config.microAct (SMap.get 0 x.store r.micro.pc) r.micro.regs = .step regs next → sameMemory s t ∧
          (t.unit u.val).running = some { r with micro := ({ r.micro with regs := (List.range 16).map fun k => regs.getD k 0 % 2 ^ 32 } : Micro).advance next }) ∧
        (∀ last n, Config.microAct (SMap.get 0 x.store r.micro.pc) r.micro.regs = .loop last n → sameMemory s t ∧
          (4 ≤ r.micro.loops.length → r.acc.pois = false → ∃ r', (t.unit u.val).running = some r' ∧ r'.computed = true ∧ r'.status = 6) ∧
          (r.micro.loops.length < 4 → n ≠ 0 →
            (t.unit u.val).running = some { r with micro := { r.micro with pc := r.micro.pc + 1, loops := (r.micro.pc + 1, last, n) :: r.micro.loops } })) ∧
        (∀ p l, Config.microAct (SMap.get 0 x.store r.micro.pc) r.micro.regs = .invoke p l → r.cmd.rejects p.val l = false → primEmpty p.val l = true →
          sameMemory s t ∧ (t.unit u.val).running = some { r with acc := { r.acc with zeroLen := true }, base := { r.acc with zeroLen := true }, micro := r.micro.advance (r.micro.pc + 1) }) ∧
        (∀ g, Config.microAct (SMap.get 0 x.store r.micro.pc) r.micro.regs = .finish g → g ≤ 256 → r.cmd.inBuffer g = true → x.bufWords = [] →
          sameMemory s t ∧ ∃ r', (t.unit u.val).running = some r' ∧ r'.computed = true ∧ r'.status = if r.acc.pois then 4 else 0)))

/-- Buffers, stores and UNIT_CTL: a write of a unit's buffer changes its bytes there and is acknowledged; one through the broadcast window lands in all 64 buffers of the stack; the steward begins and ends
loading, clears the counters and aborts; a load grain writes sixteen store words from LOAD_ADDR; the store's CRC is in once its time has come. -/
def Obligations.PrivetBuffersAndStores : Prop :=
  ∀ (s : State) (u : UnitId) (x : Machine.PUnit), s.isReady = true → x = s.unit u.val →
    (∀ id q o, s.ready id (· == .write) = some q → q.status = 0 → placeOf q.dest.addr = .control (0x5000000 + 0x10000 * u.val + o) → o < 0x10000 →
      (s.tier (u.val / 64)).doze = false → answers (.unitBufferWrite id) s fun t => sameMemory s t ∧ answeredWith t id {} 0 ∧
        (t.unit u.val).buffer = x.buffer.write o q.data.bytes ∧ ∀ v, v ≠ u.val → t.unit v = s.unit v) ∧
    (∀ id q o, ∀ k : StackId, s.ready id (· == .write) = some q → q.status = 0 → placeOf q.dest.addr = .control (0x4100000 + 0x10000 * k.val + o) → o < 0x10000 →
      (s.tier k.val).doze = false → answers (.broadcastWindowWrite id) s fun t => sameMemory s t ∧ answeredWith t id {} 0 ∧
        (∀ p, p < 64 → (t.unit (64 * k.val + p)).buffer = (s.unit (64 * k.val + p)).buffer.write o q.data.bytes) ∧
        ∀ v, v < 64 * k.val ∨ 64 * k.val + 64 ≤ v → t.unit v = s.unit v) ∧
    (∀ p, s.portUp p = true → p ≠ s.stew.port → ∀ c ∈ [Instr.unitLoadBegin p u, .unitLoadEnd p u, .unitCntClr p u, .abortUnit p u], answers c s fun t =>
      t = { s with power := t.power }) ∧
    (s.portUp s.stew.port = true →
      answers (.unitLoadBegin s.stew.port u) s (fun t => sameMemory s t ∧ (∀ v, v ≠ u.val → t.unit v = s.unit v) ∧
        (s.unitIdle u.val = true → s.odNow 0x8000 1 ≠ 1 → (t.unit u.val) = { x with load := true }) ∧ (s.odNow 0x8000 1 = 1 → t.unit u.val = x)) ∧
      (x.load = true → answers (.unitLoadEnd s.stew.port u) s fun t => (t.unit u.val).load = false ∧ (t.unit u.val).crcValid = false ∧
        (t.unit u.val).crcDue = true ∧ (t.unit u.val).store = x.store) ∧
      (x.load = false → answers (.unitCntClr s.stew.port u) s fun t => t.unit u.val = { x with cnt := [] }) ∧
      (∀ r, x.load = false → x.running = some r → answers (.abortUnit s.stew.port u) s fun t => (t.unit u.val).running = none ∧ (t.unit u.val).queue = [] ∧
        (t.unit u.val).lastStatus = 8 ∧ (t.unit u.val).lastTag = r.cmd.tag ∧ sameMemory s t)) ∧
    (∀ id q, s.grainAt id = some (q, u.val) → q.status = 0 → x.load = true → answers (.loadGrain id) s fun t => answeredWith t id {} 0 ∧ sameMemory s t ∧
      (∀ j, j < 16 → SMap.get 0 (t.unit u.val).store ((x.loadAddr + j) % 1024) = fieldAt q.data.bytes (4 * j) 4) ∧
      (t.unit u.val).loadAddr = (x.loadAddr + 16) % 1024 ∧ (t.unit u.val).crcValid = false) ∧
    (x.load = false → x.crcDue = true → answers (.storeCrcDone u) s fun t =>
      t.unit u.val = ({ x with crc := x.storeCrc, crcValid := true, crcDue := false } : Machine.PUnit).next (s.unitTs u.val) ∧ sameMemory s t)

/-! ## Laurel (05 R168 to R173, 11 R360 to R388) -/

/-- The seven requests on Laurel: with no declaration each ends with NO_MODEL; ADMIT takes an entry, fills it from the descriptor and writes its handle to the host, or is refused with its reason; a stale
handle, another partition's and an ENDED sequence are refused in that order; CANCEL, PAUSE and RESUME mark the sequence for the next boundary, DRAFT gives it drafts of its epoch, QUERY writes its entry to
the host, RECEIVE queues a buffer among its partition's in the order of their fetches. A DRAFT of no token is empty. (What is written to the host waits while the partition's bucket of that direction is empty, 10 R341.) -/
def Obligations.LaurelRequestsAnswered : Prop :=
  ∀ (s : State) (op : Nat) (o : HostOp) (sub h q : Nat) (x : Seq), s.starts op 4 = some o → o.status = 0 → sub = fieldAt o.desc 8 1 → h = fieldAt o.desc 0x0C 4 →
    q = h % 4096 → x = s.seq q →
    (∀ c, (sub, c) ∈ [(1, Instr.admitSequence op), (2, .cancel op), (3, .draft op), (4, .receive op), (5, .pauseSequence op), (6, .resumeSequence op), (7, .query op)] →
      s.laurel.decl = none → answers c s fun t => endedAs s t op o 9 0 ∧ t.laurel.seqs = s.laurel.seqs) ∧
    (∀ d, s.laurel.decl = some d → sub = 1 → answers (.admitSequence op) s fun t =>
      (fieldAt o.desc 0x18 4 = 0 ∨ fieldAt o.desc 0x1C 4 = 0 → endedAs s t op { o with zeroLen := true } 0 0 ∧ t.laurel = s.laurel) ∧
      (fieldAt o.desc 0x18 4 ≠ 0 → fieldAt o.desc 0x1C 4 ≠ 0 → s.admitReason o d ≠ 0 →
        endedAs s t op o 3 (s.admitReason o d) ∧ t.laurel.seqs = s.laurel.seqs) ∧
      (fieldAt o.desc 0x18 4 ≠ 0 → fieldAt o.desc 0x1C 4 ≠ 0 → s.admitReason o d = 0 → s.mayPass (some o.part) 18 = true → endedAs s t op o 0 0 ∧
        ∃ n, n = s.takeSeq.1 ∧ t.seq n = admitted o d (s.seq n).gen s.laurelTs s.laurel.step.num ∧ (∀ p, p ≠ n → t.seq p = s.seq p) ∧
          t.outbox = .hostWrite o.port (fieldAt o.desc 0x38 8) (leBytes 4 (n + 4096 * (s.seq n).gen) ++ zeros 4) false :: s.outbox)) ∧
    (s.laurel.decl.isSome → sub = 3 → fieldAt o.desc 0x12 1 = 0 → answers (.draft op) s fun t => endedAs s t op { o with zeroLen := true } 0 0 ∧ t.laurel = s.laurel) ∧
    (∀ d c, s.laurel.decl = some d → (sub, c) ∈ [(2, Instr.cancel op), (3, .draft op), (5, .pauseSequence op), (6, .resumeSequence op), (7, .query op)] →
      (sub = 3 → fieldAt o.desc 0x12 1 ≠ 0) → answers c s fun t =>
        (x.state = 0 ∨ x.handle q ≠ h → endedAs s t op o 3 2 ∧ t.laurel.seqs = s.laurel.seqs) ∧
        (x.state ≠ 0 → x.handle q = h → x.part ≠ o.part → endedAs s t op o 3 3 ∧ t.laurel.seqs = s.laurel.seqs) ∧
        (x.state = 8 → sub ≠ 7 → x.handle q = h → x.part = o.part → endedAs s t op o 3 0x0A ∧ t.laurel.seqs = s.laurel.seqs)) ∧
    (∀ d, s.laurel.decl = some d → x.state ≠ 0 → x.state ≠ 8 → x.handle q = h → x.part = o.part →
      (sub = 2 → answers (.cancel op) s fun t => endedAs s t op o 0 0 ∧ t.seq q = { x with cancel := true } ∧ t.laurel.wantBoundary = true ∧
        ∀ p, p ≠ q → t.seq p = s.seq p) ∧
      (sub = 5 → answers (.pauseSequence op) s fun t => endedAs s t op o 0 0 ∧ t.seq q = { x with held := true } ∧ t.laurel.wantBoundary = true ∧
        ∀ p, p ≠ q → t.seq p = s.seq p) ∧
      (sub = 6 → answers (.resumeSequence op) s fun t => (x.held = false → endedAs s t op o 3 8 ∧ t.laurel.seqs = s.laurel.seqs) ∧
        (x.held = true → endedAs s t op o 0 0 ∧ t.seq q = { x with held := false, autoPaused := false } ∧ ∀ p, p ≠ q → t.seq p = s.seq p)) ∧
      (sub = 7 → s.mayPass (some o.part) 18 = true → answers (.query op) s fun t => endedAs s t op o 0 0 ∧ t.laurel = s.laurel ∧
        t.outbox = .hostWrite o.port (fieldAt o.desc 0x10 8) (x.bytes q) false :: s.outbox) ∧
      (∀ n, sub = 3 → n = min 7 (fieldAt o.desc 0x12 1) → n ≠ 0 → s.policy 3 ≠ 0 → answers (.draft op) s fun t =>
        (x.state ≠ 2 → x.state ≠ 3 → endedAs s t op o 3 8 ∧ t.laurel.seqs = s.laurel.seqs) ∧
        (x.state = 2 ∨ x.state = 3 → fieldAt o.desc 0x10 2 ≠ x.specEpoch → endedAs s t op o 3 9 ∧ t.laurel.seqs = s.laurel.seqs) ∧
        (x.state = 2 ∨ x.state = 3 → fieldAt o.desc 0x10 2 = x.specEpoch → endedAs s t op o 0 0 ∧
          t.seq q = { x with draftCount := n, draftEpoch := x.specEpoch, drafts := (List.range n).map fun i => fieldAt o.desc (0x14 + 4 * i) 4 }))) ∧
    (∀ d n, s.laurel.decl = some d → sub = 4 → n = fieldAt o.desc 0x18 4 → answers (.receive op) s fun t =>
      (n = 0 → endedAs s t op { o with zeroLen := true } 0 0 ∧ t.laurel = s.laurel) ∧
      (n ≠ 0 → n < 16384 ∨ fieldAt o.desc 0x10 8 % 64 ≠ 0 → endedAs s t op o 3 0x0C ∧ t.laurel.recv = s.laurel.recv) ∧
      (16384 ≤ n → fieldAt o.desc 0x10 8 % 64 = 0 → t.op? op = some { o with stage := .running } ∧
        SMap.get [] t.laurel.recv o.part = insertBy (fun x y => decide (x.op < y.op)) ⟨op, fieldAt o.desc 0x10 8, n⟩ (SMap.get [] s.laurel.recv o.part)))

/-- What reaches Laurel while a step runs: the next kernel of the step program is launched, the last one begins the drain; a drain past its limit is reported once; a fold raises its declared slot's
maximum; a unit's FORMAT_REFUSED is its sequence's fault, POISONED leaves all as it is and any other fault aborts the step, while a notice of no partition in the step is dropped; a repaired weight page with a spare returns to service. -/
def Obligations.StepEventsTaken : Prop :=
  ∀ s : State, s.isReady = true →
    (∀ d k, s.laurel.decl = some d → s.laurel.step.running = true → s.laurel.step.aborting = false → s.drain.reached = false →
      d.kernels[s.laurel.step.launched]? = some k → s.kernelMay k = true → s.noConv → s.noWait s.stepLaunch → answers .stepKernelLaunch s fun t =>
        t.laurel.step.launched = s.laurel.step.launched + 1 ∧
        (∃ l : Launch, t.launches = s.launches ++ [l] ∧ l.id = s.nextId ∧ l.by_ = .laurel ∧ l.part = none ∧ l.kernelId = fieldAt k 8 8 ∧
          l.streamAddr = fieldAt k 0x10 8 / 64 * 64 ∧ l.words = fieldAt k 0x18 4 ∧ l.masks = (List.range 8).map fun h => fieldAt k (0x20 + 2 * h) 2) ∧
        (s.laurel.step.launched + 1 = d.kernels.length → t.drain.active = true)) ∧
    (s.drain.active = true → s.drain.overdue = false → s.drain.reached = false → 1000 * s.odv 0x6040 2 ≤ s.laurelTs - s.drain.since → s.log.intake.length < 64 →
      s.power.isolated = false → answers .drainOverdue s fun t => t = { s with drain := { s.drain with overdue := true }, log := t.log, power := t.power } ∧
        t.log.intake = s.log.intake ++ [{ code := 0x32, source := 0x89, args := [(s.laurelTs - s.drain.since) / 1000], time := s.ts, step := s.laurel.step.num }]) ∧
    (∀ i v r x, s.folds = (i, v) :: r → x = SMap.get ({} : Slot) s.laurel.slots i → answers .scaleFold s fun t => t.folds = r ∧
      (∀ j, j ≠ i → SMap.get ({} : Slot) t.laurel.slots j = SMap.get {} s.laurel.slots j) ∧
      (x.declared = true → x.lost = false → SMap.get ({} : Slot) t.laurel.slots i = { x with folded := true, stepMax := max x.stepMax v }) ∧
      (x.declared = false ∨ x.lost = true → SMap.get ({} : Slot) t.laurel.slots i = x)) ∧
    (∀ u st tag part r, s.unitNotices = (u, st, tag, part) :: r → answers .privetFaultNotice s fun t => t.unitNotices = r ∧
      (s.laurel.step.running = false ∨ s.stepParts.contains part = false → t = { s with unitNotices := r, power := t.power }) ∧
      (s.laurel.step.running = true → s.stepParts.contains part = true → st = 2 → tag.testBit 12 = false → (s.seq (tag % 4096)).state ≠ 0 →
        (s.seq (tag % 4096)).state ≠ 8 → (t.seq (tag % 4096)).fault = if (s.seq (tag % 4096)).fault = 0 then 1 else min (s.seq (tag % 4096)).fault 1) ∧
      (s.laurel.step.running = true → s.stepParts.contains part = true → st = 4 → t = { s with unitNotices := r, power := t.power }) ∧
      (s.laurel.step.running = true → s.stepParts.contains part = true → st ≠ 2 → st ≠ 4 → t.laurel.step.aborting = true)) ∧
    (∀ k page spare, s.laurel.waitPage = some (k, page) → s.autoRepair k page = some spare → s.laurel.serving = 1 → (s.tier k).page page = 2 →
      s.noConv → s.noWait s.restoreWeight → answers .weightPageRestore s fun t =>
        (t.tier k).page page = 0 ∧ t.laurel.waitPage = none ∧ t.laurel.replayDue = true ∧ t.laurel.wantBoundary = true)

/-- The prefix index and the extent mover, a block or an extent at a time: a walk takes over a matching node's block, or ends with the sequence READY; a full block enters the index as a node of its own, or
joins the node that is there; a spill moves an extent of one reference to the spill pool and a restore moves it back to its stack, while shared and indexed extents stay; a copy
that stood still goes on. A lost copy is marked so. A handle that may not be used ends the walk with the sequence's fault EXTENT_STALE, one outside its generation window ends it as a miss; a spill that has
been asked for begins when the mover takes the sequence. (With no page in conversion, tokens for the sequence's partition, and the scratchpad accesses that the row needs done.) -/
def Obligations.PrefixIndexAndExtents : Prop :=
  ∀ (s : State) (q : SeqId) (d : Decl) (x : Seq), s.isReady = true → s.laurel.decl = some d → x = s.seq q.val → s.noConv → s.allPaid x.part →
    (∀ w p s1, s.drain.active = false → s.laurel.walks.find? (·.seq == q.val) = some w → s.noWait (s.walk q.val) →
      (s.workingFor x.part).readDie (x.promptAddr + 256 * w.block) 256 = (p, s1) →
      answers (.berylWalk q) s fun t =>
        ((x.promptLen - 1) / 64 ≤ w.block ∨ p.poison = true → (t.seq q.val).state = 2 ∧ (t.seq q.val).shared = x.shared ∧
          t.laurel.walks = s.laurel.walks.filter (·.seq != q.val) ∧ t.laurel.wantBoundary = true) ∧
        (w.block < (x.promptLen - 1) / 64 → p.poison = false → ∀ n s2, s1.probeNode d (blockKey (s1.keyPart x.part) w.parent p.bytes) (s1.keyPart x.part)
            w.parent p.bytes 16 0 = (n, s2) →
          (n = none → (t.seq q.val).state = 2 ∧ (t.seq q.val).chain = x.chain) ∧
          (∀ m hs s3 h, n = some m → s2.nodeRefs d m w.block = (hs, s3) → h ∈ hs → h.2.poison = true ∨ 2 ^ 30 ≤ s3.genAge h.2.gen →
            (t.seq q.val).state = 2 ∧ (t.seq q.val).chain = x.chain) ∧
          (∀ m hs s3 h, n = some m → s2.nodeRefs d m w.block = (hs, s3) → h ∈ hs → s3.refOk h.2 = false → (∀ g ∈ hs, g.2.poison = false ∧ s3.genAge g.2.gen < 2 ^ 30) →
            x.state ≠ 0 → x.state ≠ 8 → (t.seq q.val).fault = (if x.fault = 0 then 4 else min x.fault 4) ∧ (t.seq q.val).chain = x.chain ∧ t.laurel.wantBoundary = true) ∧
          (∀ m hs s3, n = some m → s2.nodeRefs d m w.block = (hs, s3) → (∀ h ∈ hs, s3.refOk h.2 = true ∧ s3.genAge h.2.gen < 2 ^ 30) →
            (t.seq q.val).chain = x.chain ++ [m] ∧ (t.seq q.val).shared = x.shared + 1 ∧ (t.seq q.val).len = 64 * (x.shared + 1) ∧
            (t.seq q.val).blocks = x.blocks + 1 ∧ t.laurel.walks = s.laurel.walks.map fun y => if y.seq = q.val then ⟨q.val, w.block + 1, m⟩ else y))) ∧
    (∀ p s1, s.drain.reached = false → s.insertDue q.val = true → s.noWait (s.insertNode q.val) → (s.workingFor x.part).blockTokens x x.chain.length = (p, s1) →
      answers (.nodeInsert q) s fun t =>
      (p.poison = true → (t.seq q.val).stopInsert = true ∧ (t.seq q.val).chain = x.chain) ∧
      (∀ parent part n s2, p.poison = false → parent = (x.chain.getLast?).getD noNode → part = s1.keyPart x.part →
        s1.probeNode d (blockKey part parent p.bytes) part parent p.bytes 16 0 = (n, s2) →
        (∀ m, n = some m → (t.seq q.val).chain = x.chain ++ [m] ∧ t.laurel.nodes = s.laurel.nodes) ∧
        (∀ hs s3 m, n = none → s2.inBuilding d (blockKey part parent p.bytes) part parent p.bytes = none → s2.refsOf d q.val (x.chain.length + 1) = (hs, s3) →
          (∀ h ∈ hs, h.1 = x.chain.length → s3.refOk h.2.2 = true) → s3.freeNode d = some m → (t.seq q.val).chain = x.chain ++ [m] ∧
            t.laurel.nodes = s.laurel.nodes ++ [m] ∧ t.laurel.building = s.laurel.building ++ [(m, blockKey part parent p.bytes)]))) ∧
    (∀ mv, s.drain.reached = false → s.laurel.moves.find? (·.seq == q.val) = some mv → s.mayMove q.val mv = true →
      (mv.restore = false → x.state = 4 → s.noWait (s.spill q.val) → answers (.extentSpill q) s fun t => (t.seq q.val).state = 5 ∧ t.laurel.kvdir = s.laurel.kvdir ∧
        t.laurel.moves.map (·.seq) = s.laurel.moves.map (·.seq)) ∧
      (mv.restore = false → x.state ≠ 4 → s.noWait (s.spill q.val) → answers (.extentSpill q) s fun t =>
        (mv.left = [] → (t.seq q.val).state = 6 ∧ t.laurel.moves = s.laurel.moves.filter (·.seq != q.val) ∧ t.laurel.kvdir = s.laurel.kvdir) ∧
        (∀ b e r h s1, mv.left = (b, e) :: r → s.moveRef d q.val b e = (h, s1) → s1.refOk h = true →
          (mv.dest = none → (s1.ext h.idx).state ≠ 1 ∨ (s1.ext h.idx).refs ≠ 1 ∨ (s1.ext h.idx).indexed = true →
            t.ext h.idx = s1.ext h.idx ∧ (t.laurel.moves.find? (·.seq == q.val)).map (·.left) = some r) ∧
          (∀ k p, mv.dest = some (k, p) ∨ (mv.dest = none ∧ (s1.ext h.idx).state = 1 ∧ (s1.ext h.idx).refs = 1 ∧ (s1.ext h.idx).indexed = false ∧
              k = 8 ∧ s1.freePage d 8 = some p) →
            s.regsOff x.part → (t.ext h.idx = { s1.ext h.idx with state := 3, tier := k, page := p } ∨ t.ext h.idx = { s1.ext h.idx with state := 4 }) ∧
              (t.laurel.moves.find? (·.seq == q.val)).map (·.left) = some r))) ∧
      (mv.restore = true → s.noWait (s.restore q.val) → answers (.extentRestore q) s fun t =>
        (mv.left = [] → (t.seq q.val).state = 2 ∧ t.laurel.moves = s.laurel.moves.filter (·.seq != q.val) ∧ t.laurel.kvdir = s.laurel.kvdir) ∧
        (∀ b e r h s1 k p, mv.left = (b, e) :: r → s.moveRef d q.val b e = (h, s1) → s1.refOk h = true → (s1.ext h.idx).state = 3 →
          mv.dest = some (k, p) ∨ (mv.dest = none ∧ k = d.stackOf e ∧ s1.freePage d (d.stackOf e) = some p) → s.regsOff x.part →
            (t.ext h.idx = { s1.ext h.idx with state := 1, tier := k, page := p } ∨ t.ext h.idx = { s1.ext h.idx with state := 4 }) ∧
            (t.laurel.moves.find? (·.seq == q.val)).map (·.left) = some r)))

/-- Batches and boundaries. The oldest batch of a partition, its boundary released, fills its oldest buffer, completes its operation, and frees the sequences whose end it delivers. Step-quiet releases a drain with no model resident: each
DRAIN ends with success, pending region commands are applied, cancellations, pauses and removals take effect, the interval's saturations become the last interval's; while the march or a load holds the boundary it only stays quiet, and one that
nothing holds any more is released. (A batch waits for an earlier RECEIVE of its partition that has not begun.) -/
def Obligations.BatchesAndBoundaries : Prop :=
  (∀ (s : State) (p : PartId) (r : RecvBuf) (rs : List RecvBuf) (b : Batch) (bs : List Batch) (o : HostOp), s.isReady = true →
    SMap.get [] s.laurel.recv p.val = r :: rs → SMap.get [] s.laurel.batches p.val = b :: bs → s.op? r.op = some o → o.stage = .running → o.status = 0 →
    b.release.isSome = true → s.mayPass (some p.val) 18 = true →
    (∀ y ∈ s.ops, y.stage = .fetched → y.opcode = 4 → fieldAt y.desc 8 1 = 4 → y.part = p.val → r.op ≤ y.id) → answers (.batchDeliver p) s fun t =>
      SMap.get [] t.laurel.recv p.val = rs ∧ SMap.get [] t.laurel.batches p.val = bs ∧
      t.outbox = (s.hostOut o.port o.fn r.addr (b.bytes p.val) false).outbox ∧ endedAs s t r.op { o with bytes := (b.bytes p.val).length } 0 0 ∧
      (∀ e ∈ b.entries, e.2.1 = true → (s.seq e.1).state = 8 → t.seq e.1 = { gen := ((s.seq e.1).gen + 1) % 2 ^ 20 }) ∧
      (∀ q, (s.seq q).state ≠ 8 → t.seq q = s.seq q)) ∧
  (∀ s : State, s.mayQuiet = true →
    (s.drain.reached = true → s.drain.heldImage = true ∨ s.drain.heldMarch = true → answers (.stepQuietRaise {}) s fun t =>
      t = { s with drain := { s.drain with quiet := true }, power := t.power }) ∧
    (s.drain.reached = true → s.drain.heldImage = false → s.drain.heldMarch = false → s.noWait (s.raiseQuiet {}) → answers (.stepQuietRaise {}) s fun t =>
      t.drain.active = false ∧ t.drain.quiet = false ∧ t.drain.reached = false ∧ t.laurel.seqs = s.laurel.seqs) ∧
    (s.drain.reached = false → s.drain.heldImage = false → s.drain.heldMarch = false → s.laurel.decl = none → s.laurel.step.running = false → s.march.requested = 0 → s.march.running = 0 →
      (∀ id ∈ s.drain.ops, ∃ o, s.op? id = some o ∧ o.opcode = 5 ∧ o.stage = .running ∧ o.status = 0) → answers (.stepQuietRaise {}) s fun t =>
        t.drain.active = false ∧ t.drain.quiet = false ∧ t.drain.ops = [] ∧ (∀ id ∈ s.drain.ops, ∃ y, t.op? id = some y ∧ y.stage = .done ∧ y.status = 0) ∧
        t.laurel.sat = [] ∧ t.laurel.satLast = s.laurel.sat ∧
        (∀ k e b l, k < 8 → (s.tier k).pending = some ⟨1, e, b, l⟩ → (t.tier k).pending = none ∧
          SMap.get ({} : Region) (t.tier k).entries e = { valid := true, isSealed := true, base := b, limit := l }) ∧
        (∀ q, q ∈ s.liveSeqs → s.midMove q = false → (s.seq q).removed = true → t.seq q = { gen := ((s.seq q).gen + 1) % 2 ^ 20 }) ∧
        (∀ q, q ∈ s.liveSeqs → s.midMove q = false → (s.seq q).removed = false → (s.seq q).fault = 0 → (s.seq q).state ≠ 8 → s.laurel.step.aborting = false →
          ((s.seq q).cancel = true → (t.seq q).state = 8 ∧ (t.seq q).endReason = 4) ∧
          ((s.seq q).cancel = false → (s.seq q).held = true → (s.seq q).state = 2 → (t.seq q).state = 4))))

/-- Where each of Laurel's rows runs to its end, at its simplest: a request for a live sequence of its partition is performed and its operation ends with success, or waits in its queue (RECEIVE); a walk past
the last whole block ends with the sequence READY; a full block joins the node that is there; a spill or a restore with no extent left ends SPILLED or READY; a batch reaches its buffer; step-quiet is raised while
a march or a load holds the boundary; a late drain is marked; the step's next kernel is launched; a fold leaves the queue; a notice is taken; a repaired weight page is back in service. -/
def Obligations.LaurelRowsComplete : Prop :=
  (∀ (s : State) (d : Decl) (op : Nat) (o : HostOp) (q : Nat) (x : Seq), s.laurel.decl = some d → s.starts op 4 = some o → o.status = 0 →
    q = fieldAt o.desc 0x0C 4 % 4096 → x = s.seq q → x.handle q = fieldAt o.desc 0x0C 4 → x.part = o.part → x.state = 2 → x.held = true → s.policy 3 ≠ 0 →
    s.mayPass (some o.part) 18 = true →
    (fieldAt o.desc 8 1 = 1 → fieldAt o.desc 0x18 4 ≠ 0 → fieldAt o.desc 0x1C 4 ≠ 0 → s.admitReason o d = 0 → answers (.admitSequence op) s fun t =>
      endedAs s t op o 0 0 ∧ (t.seq s.takeSeq.1).state = (if (fieldAt o.desc 0x0B 1).testBit 0 then 2 else 1)) ∧
    (fieldAt o.desc 8 1 = 2 → answers (.cancel op) s fun t => endedAs s t op o 0 0 ∧ (t.seq q).cancel = true) ∧
    (fieldAt o.desc 8 1 = 3 → fieldAt o.desc 0x12 1 = 1 → fieldAt o.desc 0x10 2 = x.specEpoch → answers (.draft op) s fun t =>
      endedAs s t op o 0 0 ∧ (t.seq q).drafts = [fieldAt o.desc 0x14 4]) ∧
    (fieldAt o.desc 8 1 = 4 → 16384 ≤ fieldAt o.desc 0x18 4 → fieldAt o.desc 0x10 8 % 64 = 0 → answers (.receive op) s fun t =>
      t.op? op = some { o with stage := .running }) ∧
    (fieldAt o.desc 8 1 = 5 → answers (.pauseSequence op) s fun t => endedAs s t op o 0 0 ∧ (t.seq q).held = true) ∧
    (fieldAt o.desc 8 1 = 6 → answers (.resumeSequence op) s fun t => endedAs s t op o 0 0 ∧ (t.seq q).held = false) ∧
    (fieldAt o.desc 8 1 = 7 → answers (.query op) s fun t => endedAs s t op o 0 0 ∧ t.laurel = s.laurel)) ∧
  (∀ (s : State) (d : Decl) (q : SeqId), s.isReady = true → s.laurel.decl = some d → s.noConv → s.allPaid (s.seq q.val).part →
    (∀ w, s.drain.active = false → s.laurel.walks.find? (·.seq == q.val) = some w → ((s.seq q.val).promptLen - 1) / 64 ≤ w.block → s.noWait (s.walk q.val) → answers (.berylWalk q) s fun t =>
      (t.seq q.val).state = 2 ∧ t.laurel.walks = s.laurel.walks.filter (·.seq != q.val)) ∧
    (∀ p s1 n s2, s.drain.reached = false → s.insertDue q.val = true → s.noWait (s.insertNode q.val) → (s.workingFor (s.seq q.val).part).blockTokens (s.seq q.val) (s.seq q.val).chain.length = (p, s1) →
      p.poison = false → s1.probeNode d (blockKey (s1.keyPart (s.seq q.val).part) (((s.seq q.val).chain.getLast?).getD noNode) p.bytes) (s1.keyPart (s.seq q.val).part)
        (((s.seq q.val).chain.getLast?).getD noNode) p.bytes 16 0 = (some n, s2) → answers (.nodeInsert q) s fun t => (t.seq q.val).chain = (s.seq q.val).chain ++ [n]) ∧
    (∀ m, s.drain.reached = false → s.laurel.moves.find? (·.seq == q.val) = some m → m.left = [] → s.mayMove q.val m = true →
      (m.restore = false → (s.seq q.val).state ≠ 4 → answers (.extentSpill q) s fun t => (t.seq q.val).state = 6 ∧ t.laurel.moves = s.laurel.moves.filter (·.seq != q.val)) ∧
      (m.restore = true → s.noWait (s.restore q.val) → answers (.extentRestore q) s fun t => (t.seq q.val).state = 2 ∧ t.laurel.moves = s.laurel.moves.filter (·.seq != q.val)))) ∧
  (∀ s : State, s.isReady = true → s.noConv →
    (∀ (p : PartId) r rs b bs o, SMap.get [] s.laurel.recv p.val = r :: rs → SMap.get [] s.laurel.batches p.val = b :: bs → s.op? r.op = some o → o.stage = .running →
      o.status = 0 → b.release.isSome = true → s.mayPass (some p.val) 18 = true →
      (∀ y ∈ s.ops, y.stage = .fetched → y.opcode = 4 → fieldAt y.desc 8 1 = 4 → y.part = p.val → r.op ≤ y.id) → answers (.batchDeliver p) s fun t =>
        SMap.get [] t.laurel.batches p.val = bs ∧ t.outbox = (s.hostOut o.port o.fn r.addr (b.bytes p.val) false).outbox) ∧
    (∀ q, s.mayQuiet = true → s.drain.reached = true → s.drain.heldMarch = true → answers (.stepQuietRaise q) s fun t => t.drain = { s.drain with quiet := true }) ∧
    (s.drain.active = true → s.drain.overdue = false → s.drain.reached = false → 1000 * s.odv 0x6040 2 ≤ s.laurelTs - s.drain.since → answers .drainOverdue s fun t =>
      t.drain = { s.drain with overdue := true }) ∧
    (∀ d k, s.laurel.decl = some d → s.laurel.step.running = true → s.laurel.step.aborting = false → s.drain.reached = false →
      d.kernels[s.laurel.step.launched]? = some k → s.kernelMay k = true → s.noWait s.stepLaunch → answers .stepKernelLaunch s fun t =>
        t.laurel.step.launched = s.laurel.step.launched + 1 ∧ t.launches.length = s.launches.length + 1) ∧
    (∀ f r, s.folds = f :: r → answers .scaleFold s fun t => t.folds = r ∧
      ((SMap.get ({} : Slot) s.laurel.slots f.1).declared = true → (SMap.get ({} : Slot) s.laurel.slots f.1).lost = false →
        (SMap.get ({} : Slot) t.laurel.slots f.1).folded = true)) ∧
    (∀ n r, s.unitNotices = n :: r → answers .privetFaultNotice s fun t => t.unitNotices = r) ∧
    (∀ k page spare, s.laurel.waitPage = some (k, page) → s.autoRepair k page = some spare → s.laurel.serving = 1 → (s.tier k).page page = 2 → s.noWait s.restoreWeight →
      answers .weightPageRestore s fun t => (t.tier k).page page = 0 ∧ t.laurel.waitPage = none))

/-! ## Host ports, queues, operations, partitions, stewardship (10) -/

/-- A port reset, by PERST, loss of link or hot reset, takes the link down, returns the port's functions to their reset values with their assignment kept and
the queues assigned to them to reset, drops the reads of host memory that the port had outstanding, and leaves the other port's link as it was.

PERST# released is seen at the pin alone; a link trains within its port's settings and takes them at that moment; a function-level reset returns its function's
block to reset, keeps the assignment, resets its queues, and (a PF's, log 25) takes the VFs away. -/
def Obligations.PortAndFunctionResets : Prop :=
  (∀ (s : State) (p : PortId) (cause : Fin 3), s.isReady = true → (cause = 0 ∧ s.perstOf p = false) ∨ (cause ≠ 0 ∧ (s.port p).up = true) →
    answers (.portReset p cause) s fun t =>
      (t.port p).up = false ∧ (t.port p).rate = 0 ∧ (t.port p).width = 0 ∧ (t.port p).numVfs = 0 ∧ (t.port p).resets = inc32 (s.port p).resets ∧
      (∀ f, f < 16 → (t.fn p f).event = 0 ∧ (t.fn p f).eventEn = 0 ∧ (t.fn p f).base = 0 ∧ (t.fn p f).mbox = {} ∧
        (t.fn p f).qBase = (s.fn p f).qBase ∧ (t.fn p f).qCount = (s.fn p f).qCount ∧ (t.fn p f).qPart = (s.fn p f).qPart) ∧
      (∀ f i, f < 16 → i < (s.fn p f).qCount → t.queue ((s.fn p f).qBase + i) = {}) ∧
      (∀ r ∈ t.hostReads, r.port ≠ p) ∧ (t.port !p).up = (s.port !p).up ∧ (cause = 0 → t.power.perst.getD (b2n p) false = true)) ∧
  (∀ (s : State) (p : PortId),
    answers (.perstDeassert p) s (fun t => t = { s with power := { s.power with perst := t.power.perst }, ports := t.ports } ∧
      t.power.perst.getD (b2n p) false = false ∧ (t.port p) = { s.port p with causeEnd := (t.port p).causeEnd } ∧ t.port (!p) = s.port (!p) ∧
      (s.isReady = true → s.perstOf p = true → (t.port p).causeEnd = s.ts)) ∧
    (∀ rate width, s.isReady = true → s.perstOf p = false → (s.port p).up = false → (s.port p).causeEnd + 1000000 ≤ s.ts → 1 ≤ rate → rate ≤ s.portSet p 2 →
      width ∈ [1, 2, 4, 8] → width ≤ s.portSet p 3 → answers (.pcieLinkUp p rate width) s fun t =>
        (t.port p).up = true ∧ (t.port p).rate = rate ∧ (t.port p).width = width ∧ (t.port p).fns = (s.port p).fns ∧
        (t.port p).trained = [s.portSet p 1, s.portSet p 2, s.portSet p 3, s.portSet p 4] ∧ t.port (!p) = s.port (!p)) ∧
    (∀ f : FnId, s.fnUp p f.val = true → answers (.functionLevelReset p f) s fun t =>
      (t.fn p f.val).event = 0 ∧ (t.fn p f.val).eventEn = 0 ∧ (t.fn p f.val).mbox = {} ∧ (t.fn p f.val).d3hot = false ∧ (t.fn p f.val).qBase = (s.fn p f.val).qBase ∧
      (t.fn p f.val).qCount = (s.fn p f.val).qCount ∧ (∀ i, i < (s.fn p f.val).qCount → t.queue ((s.fn p f.val).qBase + i) = {}) ∧
      (t.port p).up = true ∧ (f.val = 0 → (t.port p).numVfs = 0 ∧ (t.port p).vfEnable = false)))

/-- The memory aperture maps offset o to die address BASE × 2^36 + o. A read of mapped memory asks its homes for the bytes, a grain at a time, and waits for them; a read
that leaves the tiers and scratchpads completes with Completer Abort and asks for nothing.

A write asks the homes of its grains to store exactly its bytes, poisoned where it came poisoned, and the command itself writes no memory; one that leaves the tiers and
scratchpads is dropped and counted. Both carry the partition of their PF's pool, and their ordering attributes make no difference (09 R312). -/
def Obligations.ApertureAccesses : Prop :=
  ∀ (s : State) (p : PortId) (addr a : Nat), s.reach p 0 = true → a = ((s.fn p 0).base * 2 ^ 36 + addr) % 2 ^ 64 →
    (∀ len m, spanMapped a len = true → answers (.apertureRead p addr len m) s fun t => ∃ l : List Txn, t.txns = s.txns ++ l ∧
      l.map (fun y => (y.kind, y.agent, y.dest, y.len, y.part, y.purpose)) =
        (spanCuts a len).map (fun c => (.read, .host p, ⟨none, a + c.1⟩, c.2, s.aperturePart p, .host s.nextId c.1)) ∧
      (t.port p).reads = (s.port p).reads ++ [{ id := s.nextId, len := len, left := (spanCuts a len).length }] ∧
      t.outbox = s.outbox ∧ t.tiles = s.tiles ∧ t.tiers = s.tiers) ∧
    (∀ len m, spanMapped a len = false → answers (.apertureRead p addr len m) s fun t =>
      t = { s with outbox := .completion p 1 [] false :: s.outbox, ports := t.ports, power := t.power } ∧
      t.fn p 0 = { s.fn p 0 with aer := (s.fn p 0).aer ||| 2 ^ 15 } ∧ (∀ f, f ≠ 0 → t.fn p f = s.fn p f) ∧ t.port (!p) = s.port (!p)) ∧
    (∀ data ep m, spanMapped a data.length = true → answers (.apertureWrite p addr data ep m) s fun t => ∃ l : List Txn, t.txns = s.txns ++ l ∧
      l.map (fun y => (y.kind, y.agent, y.dest, y.len, y.data, y.part, y.purpose)) =
        (spanCuts a data.length).map (fun c => (.write, .host p, ⟨none, a + c.1⟩, c.2, ⟨(data.drop c.1).take c.2, ep⟩, s.aperturePart p, .posted)) ∧
      t = { s with txns := t.txns, nextId := t.nextId, power := t.power }) ∧
    (∀ data ep m, spanMapped a data.length = false → answers (.apertureWrite p addr data ep m) s fun t =>
      t = { s with modCnt := t.modCnt, power := t.power } ∧ SMap.get 0 t.modCnt (odKey 0x7209 1) = satAdd 32 (SMap.get 0 s.modCnt (odKey 0x7209 1)) 1)

/-- Doorbells and the queue's states: a tail inside the ring is taken, one outside puts the queue in error with code 2, one during a drain is latched, and states 0 and 2 ignore it;
CQ_HEAD frees slots; ENABLE starts a queue whose sizes are legal and puts another in error with code 1; disabling an idle queue ends in state 0.

A mailbox takes one request at a time: a free one becomes busy and its request joins the dictionary's queue with the data its host has placed; a busy one marks an overrun and
queues nothing. -/
def Obligations.DoorbellsQueuesMailbox : Prop :=
  (∀ (s : State) (p : PortId) (f : FnId) (q n : Nat) (v : BitVec 16), s.reach p f.val = true → s.poolQueue p f.val q = some n →
    ((s.queue n).state = 1 → s.drain.active = false → v.toNat < 2 ^ (s.queue n).sqLog → answers (.sqTail p f q v) s fun t =>
      t.queue n = { s.queue n with tail := v.toNat } ∧ ∀ m, m ≠ n → t.queue m = s.queue m) ∧
    ((s.queue n).state = 1 → s.drain.active = false → 2 ^ (s.queue n).sqLog ≤ v.toNat → answers (.sqTail p f q v) s fun t =>
      t.queue n = { s.queue n with state := 3, error := 2 }) ∧
    ((s.queue n).state = 1 → s.drain.active = true → answers (.sqTail p f q v) s fun t => t.queue n = { s.queue n with latched := some v.toNat }) ∧
    ((s.queue n).state = 0 ∨ (s.queue n).state = 2 → answers (.sqTail p f q v) s (fun t => t = { s with power := t.power }) ∧
      answers (.cqHead p f q v) s fun t => t = { s with power := t.power }) ∧
    ((s.queue n).state = 1 → v.toNat < 2 ^ (s.queue n).cqLog →
      (v.toNat + 2 ^ (s.queue n).cqLog - (s.queue n).cqHead) % 2 ^ (s.queue n).cqLog ≤ (s.queue n).used - (s.queue n).inFlight →
      answers (.cqHead p f q v) s fun t => (t.queue n).cqHead = v.toNat ∧
        (t.queue n).used = (s.queue n).used - (v.toNat + 2 ^ (s.queue n).cqLog - (s.queue n).cqHead) % 2 ^ (s.queue n).cqLog) ∧
    ((s.queue n).state = 0 → 4 ≤ (s.queue n).sqLog → (s.queue n).sqLog ≤ 15 → 4 ≤ (s.queue n).cqLog → (s.queue n).cqLog ≤ 15 →
      answers (.queueEnable p f q) s fun t => (t.queue n).state = 1 ∧ (t.queue n).enable = true ∧ (t.queue n).sqHead = 0 ∧ (t.queue n).cqTail = 0 ∧
        (t.queue n).cqSeq = 0 ∧ (t.queue n).phase = true ∧ (t.queue n).sqBase = (s.queue n).sqBase ∧ (t.queue n).cqBase = (s.queue n).cqBase) ∧
    ((s.queue n).state = 0 → (s.queue n).sqLog < 4 ∨ 15 < (s.queue n).sqLog ∨ (s.queue n).cqLog < 4 ∨ 15 < (s.queue n).cqLog →
      answers (.queueEnable p f q) s fun t => (t.queue n).state = 3 ∧ (t.queue n).error = 1) ∧
    ((s.queue n).state = 1 ∨ (s.queue n).state = 3 → answers (.queueDisable p f q) s fun t =>
      (t.queue n).enable = false ∧ (t.queue n).latched = none ∧ (t.queue n).state = (if (s.queue n).inFlight = 0 then 0 else 2))) ∧
  (∀ (s : State) (p : PortId) (f : FnId) (i : BitVec 16) (sub : Byte), s.reach p f.val = true →
    ((s.fn p f.val).mbox.busy = false →
      answers (.mailboxRead p f i sub) s (fun t => (t.fn p f.val).mbox = { (s.fn p f.val).mbox with busy := true } ∧
        t.dictQ = s.dictQ ++ [.mailbox p f true false i.toNat sub.toNat []]) ∧
      ∀ n, answers (.mailboxWrite p f i sub n) s fun t => (t.fn p f.val).mbox = { (s.fn p f.val).mbox with busy := true } ∧
        t.dictQ = s.dictQ ++ [.mailbox p f true true i.toNat sub.toNat ((s.fn p f.val).mbox.data.read 0 (min 256 (n % 512)))]) ∧
    ((s.fn p f.val).mbox.busy = true →
      answers (.mailboxRead p f i sub) s (fun t => (t.fn p f.val).mbox = { (s.fn p f.val).mbox with overrun := true } ∧ t.dictQ = s.dictQ) ∧
      ∀ n, answers (.mailboxWrite p f i sub n) s fun t => (t.fn p f.val).mbox = { (s.fn p f.val).mbox with overrun := true } ∧ t.dictQ = s.dictQ))

/-- Descriptors travel in three steps: a fetch reserves their record slots and in-flight places and reads host memory; its completion makes each an operation and moves SQ_HEAD;
one that times out, once the timeout of its function's Device Control 2 may have run, gives the places back and puts the queue in error with code 3.

A completion record, the first of its queue's that have ended, is written to CQ_BASE + 32 × CQ_TAIL and frees its operation's place; its message goes out where the operation and the queue ask for one, and a message held
back by HOLDOFF goes out when that has run. -/
def Obligations.DescriptorsToRecords : Prop :=
  (∀ (s : State) (q : QueueId) (n : Nat) (p : PortId) (f l : Nat),
    (s.holderOf q.val = some (p, f, l) → s.fnUp p f = true → (s.fn p f).d3hot = false → (s.queue q.val).state = 1 → 1 ≤ n → n ≤ 8 →
      n ≤ ((s.queue q.val).tail + 2 ^ (s.queue q.val).sqLog - (s.queue q.val).sqHead) % 2 ^ (s.queue q.val).sqLog - (s.queue q.val).fetching →
      ((s.queue q.val).sqHead + (s.queue q.val).fetching) % 2 ^ (s.queue q.val).sqLog + n ≤ 2 ^ (s.queue q.val).sqLog →
      (s.queue q.val).used + n ≤ 2 ^ (s.queue q.val).cqLog → s.inFlightAll + n ≤ 4096 →
      s.inFlightOf (s.fn p f).qPart + n ≤ s.odv 0x5001 ((s.fn p f).qPart + 1) → s.bufferOf p + n ≤ 512 → s.resetting = [] →
      (s.placeGrant p).isSome = true → s.mayPass (some (s.fn p f).qPart) 19 = true → answers (.descriptorFetch q n) s fun t =>
        (t.queue q.val).used = (s.queue q.val).used + n ∧ (t.queue q.val).inFlight = (s.queue q.val).inFlight + n ∧
        ∃ r : HostRead, t.hostReads = s.hostReads ++ [r] ∧ r.id = s.nextId ∧ r.port = p ∧ r.fn = f ∧ r.len = 64 * n ∧ r.what = .fetch q.val n ∧
          t.outbox = .hostRead p r.addr (64 * n) :: s.outbox) ∧
    (∀ r data, s.isReady = true → s.hostReads.find? (·.id == n) = some r → s.readInTurn r = true → r.what = .fetch q.val l →
      answers (.hostReadCompletion n data true false 0) s (fun t =>
        (∃ os, t.ops = s.ops ++ os ∧ os.length = l ∧ ∀ o ∈ os, o.queue = q.val ∧ o.port = r.port ∧ o.stage = .fetched ∧ o.desc.length = 64) ∧
        (t.queue q.val).sqHead = ((s.queue q.val).sqHead + l) % 2 ^ (s.queue q.val).sqLog ∧ t.hostReads = s.hostReads.filter (·.id != n)) ∧
      (s.readLate r = false → answers (.hostReadTimeout n) s fun t => t = { s with power := t.power }) ∧
      (s.readLate r = true → answers (.hostReadTimeout n) s fun t =>
        (t.queue q.val).state = 3 ∧ (t.queue q.val).error = 3 ∧ (t.queue q.val).fetching = 0 ∧ t.ops = s.ops ∧ (t.fn r.port r.fn).aer.testBit 14 = true))) ∧
  ((∀ (s : State) (op : Nat) (o : HostOp), s.isReady = true → s.op? op = some o → o.stage = .done → o.silent = false → (s.port o.port).up = true →
    (∀ x ∈ s.ops, x.queue = o.queue → x.stage = .done → x.silent = false → o.rank ≤ x.rank) → s.mayPass (some o.part) 18 = true → answers (.completionRecord op) s fun t =>
      (∃ r, r = o.record (s.queue o.queue) (o.queue - (s.fn o.port o.fn).qBase) ∧
        Out.hostWrite o.port (((s.queue o.queue).cqBase / 32 * 32 + 32 * (s.queue o.queue).cqTail) % 2 ^ 64) r false ∈ t.outbox ∧
        (o.irq = false → t.outbox = .hostWrite o.port (((s.queue o.queue).cqBase / 32 * 32 + 32 * (s.queue o.queue).cqTail) % 2 ^ 64) r false :: s.outbox)) ∧
      t.op? op = none ∧ (t.queue o.queue).cqSeq = ((s.queue o.queue).cqSeq + 1) % 65536 ∧ (t.queue o.queue).inFlight = (s.queue o.queue).inFlight - 1 ∧
      ((s.queue o.queue).cqTail + 1 = 2 ^ (s.queue o.queue).cqLog → (t.queue o.queue).cqTail = 0 ∧ (t.queue o.queue).phase = !(s.queue o.queue).phase) ∧
      ((s.queue o.queue).cqTail + 1 ≠ 2 ^ (s.queue o.queue).cqLog →
        (t.queue o.queue).cqTail = (s.queue o.queue).cqTail + 1 ∧ (t.queue o.queue).phase = (s.queue o.queue).phase) ∧
      (o.irq = true → (s.queue o.queue).irqEn = true → (s.queue o.queue).vec ≠ 0 → (s.queue o.queue).lastMsg = none → (s.fn o.port o.fn).msixEn = true →
        (s.fn o.port o.fn).masked (s.queue o.queue).vec = false → t.outbox.head? = some (.msix o.port o.fn (s.queue o.queue).vec))) ∧
  (∀ (s : State) (q : QueueId) (p : PortId) (f l x : Nat), s.holderOf q.val = some (p, f, l) → s.fnUp p f = true → (s.queue q.val).lastMsg = some x →
    (s.queue q.val).msgWaits = true → 1000 * (s.queue q.val).holdoff ≤ s.ts - x → (s.fn p f).msixEn = true → (s.fn p f).masked (s.queue q.val).vec = false →
    answers (.msixHoldoffExpire q) s fun t =>
      t.outbox = .msix p f (s.queue q.val).vec :: s.outbox ∧ t.queue q.val = { s.queue q.val with msgWaits := false, lastMsg := some s.ts }))

/-- The operations that need no data: NOP succeeds; DRAIN, IMAGE_LOAD and IMAGE_UNLOAD by the steward begin a drain, and by another end with NOT_STEWARD; a second
image is refused with reason 1, an unload with sequences live with BUSY.

KERNEL launches with its descriptor as stream header, or ends with NO_MODEL; COPY of no bytes ends at once, of a range that is not wholly mapped ends with its refusal, and
otherwise asks for its first piece; COPY_TENSOR of nothing ends at once, of bad descriptors or of a range that it may not reach with its refusal, and otherwise begins. A load of
no bytes ends at once too. -/
def Obligations.HostOperationsBegin : Prop :=
  (∀ (s : State) (op : Nat) (o : HostOp), o.status = 0 →
    (s.starts op 0 = some o → answers (.nop op) s fun t =>
      t = { s with ops := t.ops, ports := t.ports, power := t.power } ∧ endedAs s t op o 0 0 ∧ ∀ p f, t.fn p f = s.fn p f) ∧
    (s.starts op 5 = some o → answers (.drain op) s fun t =>
      (o.steward = true → t.drain.active = true ∧ t.drain.ops = s.drain.ops ++ [op] ∧ t.op? op = some { o with stage := .running }) ∧
      (o.steward = false → t.drain = s.drain ∧ endedAs s t op o 4 0)) ∧
    (s.starts op 6 = some o → answers (.imageLoad op) s fun t =>
      (o.steward = true → fieldAt o.desc 0x10 8 = 0 → t.drain = s.drain ∧ endedAs s t op { o with zeroLen := true } 0 0) ∧
      (o.steward = true → fieldAt o.desc 0x10 8 ≠ 0 → s.model = none → t.drain.active = true ∧ t.drain.ops = s.drain.ops ++ [op] ∧
        t.op? op = some { o with stage := .running, total := fieldAt o.desc 0x10 8, left := fieldAt o.desc 0x10 8 }) ∧
      (o.steward = true → fieldAt o.desc 0x10 8 ≠ 0 → s.model ≠ none → endedAs s t op o 10 1) ∧
      (o.steward = false → endedAs s t op o 4 0)) ∧
    (s.starts op 7 = some o → answers (.imageUnload op) s fun t =>
      (o.steward = true → s.liveSeqs = [] → t.drain.active = true ∧ t.drain.ops = s.drain.ops ++ [op]) ∧
      (o.steward = true → s.liveSeqs ≠ [] → t.drain = s.drain ∧ endedAs s t op o 11 0) ∧
      (o.steward = false → endedAs s t op o 4 0))) ∧
  (∀ (s : State) (op : Nat) (o : HostOp), o.status = 0 → o.sent = 0 → o.id = op →
    (s.starts op 1 = some o → s.noConv → s.regsOff o.part → s.noWait (s.opKernel op) → answers (.kernel op) s fun t =>
      (s.model = none → t.launches = s.launches ∧ endedAs s t op o 9 0) ∧
      (s.model ≠ none → ∃ l : Launch, t.launches = s.launches ++ [l] ∧ l.id = s.nextId ∧ l.by_ = .hostOp op ∧ l.part = some o.part ∧
        l.kernelId = fieldAt o.desc 8 8 ∧ l.streamAddr = fieldAt o.desc 0x10 8 / 64 * 64 ∧ l.words = fieldAt o.desc 0x18 4 ∧
        l.masks = (List.range 8).map (fun h => fieldAt o.desc (0x20 + 2 * h) 2) ∧ t.op? op = some { o with stage := .running })) ∧
    (s.starts op 2 = some o → o.toHost = true ∨ s.mayPass (some o.part) 19 = true → answers (.copy op) s fun t =>
      (fieldAt o.desc 0x18 4 = 0 → endedAs s t op { o with zeroLen := true } 0 0) ∧
      (fieldAt o.desc 0x18 4 ≠ 0 → copyRefused (fieldAt o.desc 0x10 8) (fieldAt o.desc 0x18 4) ≠ 0 →
        endedAs s t op o (copyRefused (fieldAt o.desc 0x10 8) (fieldAt o.desc 0x18 4)) 0) ∧
      (fieldAt o.desc 0x18 4 ≠ 0 → copyRefused (fieldAt o.desc 0x10 8) (fieldAt o.desc 0x18 4) = 0 → o.toHost = false →
        ∃ r : HostRead, t.hostReads = s.hostReads ++ [r] ∧ r.addr = fieldAt o.desc 8 8 % 2 ^ 64 ∧ r.len = min (fieldAt o.desc 0x18 4) (s.readMax o) ∧
          r.what = .copy op 0 (min (fieldAt o.desc 0x18 4) (s.readMax o)) ∧ t.txns = s.txns) ∧
      (fieldAt o.desc 0x18 4 ≠ 0 → copyRefused (fieldAt o.desc 0x10 8) (fieldAt o.desc 0x18 4) = 0 → o.toHost = true →
        ∃ l : List Txn, t.txns = s.txns ++ l ∧ t.hostReads = s.hostReads ∧ l.map (fun y => (y.kind, y.dest, y.len, y.purpose)) =
          (spanCuts (fieldAt o.desc 0x10 8) (min (fieldAt o.desc 0x18 4) (256 - fieldAt o.desc 0x10 8 % 64))).map fun c =>
            (.read, ⟨none, fieldAt o.desc 0x10 8 + c.1⟩, c.2, .copy op c.1))) ∧
    (s.starts op 3 = some o →
      (fieldAt o.desc 0x18 4 = 0 → answers (.copyTensor op) s fun t => endedAs s t op { o with zeroLen := true } 0 0 ∧ t.hostReads = s.hostReads ∧ t.txns = s.txns) ∧
      (∀ ds u, fieldAt o.desc 0x18 4 ≠ 0 → (s.forWho (op + 1) fun s => s.tensorDescs o) = (ds, u) → u.blocked = false → u.mayPass (some o.part) 19 = true →
        answers (.copyTensor op) s fun t => ∃ y, t.op? op = some y ∧
        (ds.any (·.poison) = true → y.stage = .done ∧ y.status = 3) ∧
        (∀ d w ps, d = TDesc.parse ((ds.getD 1 {}).bytes) [] → w = Window.of (XDesc.parse ((ds.getD 0 {}).bytes)) d →
          ps = tensorPieces w 1 0 (fieldAt o.desc 0x18 4) o.toHost → ds.any (·.poison) = false →
          (d.dist = true ∨ d.isLocal = true ∨ d.bad 1 = true ∨ d.isEmpty = true → y.stage = .done ∧ y.status = 3) ∧
          (d.dist = false → d.isLocal = false → d.bad 1 = false → d.isEmpty = false →
            (w.vectors = 0 → y.stage = .done ∧ y.status = 0 ∧ y.zeroLen = true) ∧
            (w.vectors ≠ 0 → piecesRefused ps ≠ 0 → y.stage = .done ∧ y.status = piecesRefused ps) ∧
            (w.vectors ≠ 0 → piecesRefused ps = 0 → o.toHost = false → 0 < w.grains →
              y.stage = .running ∧ y.total = 64 * min (fieldAt o.desc 0x18 4) w.grains ∧
              ∃ r : HostRead, t.hostReads = s.hostReads ++ [r] ∧ r.len = min y.total (s.readMax o) ∧ r.addr = fieldAt o.desc 8 8 % 2 ^ 64))))))

/-- Assignment of queue ranges by the steward, and partition resets: a sound assignment sets its function's range, an unsound one only its result; a partition's reset is started once at a
time by its owner or the steward. When nothing of the partition is left running, its operations that have not ended end with ABORTED; when their records have been written its queues are in state 0, and
the functions that hold some of them are told unless a port reset has begun it. A port reset resets the partitions that the port owns in the same way.

Stewardship passes by RELEASE to the other port where its link is up, by CLAIM from a port whose link is down, and by itself when the steward port has been reset long enough; each
passing counts once, and any other request changes nothing but its result. -/
def Obligations.AssignmentResetStewardship : Prop :=
  ((∀ (s : State) (p : PortId) (v : Word64), s.reach p 0 = true → answers (.queueAssign p 0 v) s fun t =>
    (s.assignResult p (v.toNat.testBit 4) (bits v.toNat 0 4) (bits v.toNat 5 13) (bits v.toNat 18 11) (bits v.toNat 29 4) = 0 → bits v.toNat 18 11 ≠ 0 →
      (t.fn (v.toNat.testBit 4) (bits v.toNat 0 4)).qBase = bits v.toNat 5 13 ∧ (t.fn (v.toNat.testBit 4) (bits v.toNat 0 4)).qCount = bits v.toNat 18 11 ∧
      (t.fn (v.toNat.testBit 4) (bits v.toNat 0 4)).qPart = bits v.toNat 29 4) ∧
    (∀ r, s.assignResult p (v.toNat.testBit 4) (bits v.toNat 0 4) (bits v.toNat 5 13) (bits v.toNat 18 11) (bits v.toNat 29 4) = r → r ≠ 0 →
      (t.fn p 0).qaResult = r ∧ ∀ q f, (t.fn q f).qBase = (s.fn q f).qBase ∧ (t.fn q f).qCount = (s.fn q f).qCount ∧ (t.fn q f).qPart = (s.fn q f).qPart)) ∧
  (∀ (s : State) (p : PortId) (part : PartId), s.reach p 0 = true → answers (.partitionReset p 0 part) s fun t =>
    (s.ownerOf part.val ≠ some p → p ≠ s.stew.port → (t.fn p 0).prResult = 1 ∧ t.resetting = s.resetting) ∧
    (s.ownerOf part.val = some p ∨ p = s.stew.port → s.resetting ≠ [] → (t.fn p 0).prResult = 2 ∧ t.resetting = s.resetting) ∧
    (s.ownerOf part.val = some p ∨ p = s.stew.port → s.resetting = [] → (t.fn p 0).prResult = 0 ∧ t.resetting = [(part.val, 16 * b2n p)])) ∧
  (∀ (s : State) (part : PartId) (r : Nat × Nat), s.isReady = true → s.resetting.find? (·.1 == part.val) = some r → s.partBusy part.val = false →
    (∀ o ∈ s.ops, o.part = part.val → o.stage ≠ .done → o.silent = false → (s.ops.map (·.id)).Nodup → answers (.partitionResetDone part) s fun t =>
      t.resetting = s.resetting ∧ ∃ y, t.op? o.id = some y ∧ y.stage = .done ∧ y.status = (if o.status = 0 then 8 else o.status)) ∧
    ((∀ o ∈ s.ops, o.part = part.val → o.silent = false → o.stage = .done ∧ (s.port o.port).up = false) → answers (.partitionResetDone part) s fun t =>
      t.resetting = s.resetting.filter (·.1 != part.val) ∧ (∀ q ∈ s.queuesOf part.val, (t.queue q).state = 0 ∧ (t.queue q).inFlight = 0) ∧
      (r.2 < 32 → ∀ x ∈ s.holdersOf part.val, (t.fn x.1 x.2).event.testBit 3 = true) ∧
      ∀ o ∈ t.ops, o.part = part.val → o.silent = true ∧ o.stage ≠ .done) ∧
    ((∀ o ∈ s.ops, o.part = part.val → o.silent = false → o.stage = .done) → (∃ o ∈ s.ops, o.part = part.val ∧ o.silent = false ∧ (s.port o.port).up = true) →
      answers (.partitionResetDone part) s fun t => t = { s with power := t.power })) ∧
  (∀ (s : State) (p : PortId), s.isReady = true → (s.port p).up = true → answers (.portReset p 1) s fun t =>
    ∀ q, q < 16 → s.ownerOf q = some p → (q, 32 + 16 * b2n p) ∈ t.resetting)) ∧
  (∀ s : State,
    (∀ p : PortId, s.reach p 0 = true → answers (.releaseStewardship p) s fun t =>
      (p = s.stew.port → (s.port !p).up = true → t.stew = { port := !p, changes := inc32 s.stew.changes } ∧ (t.fn p 0).stewResult = 0) ∧
      (p = s.stew.port → (s.port !p).up = false → t.stew = s.stew ∧ (t.fn p 0).stewResult = 2) ∧
      (p ≠ s.stew.port → t.stew = s.stew ∧ (t.fn p 0).stewResult = 1)) ∧
    (∀ p : PortId, s.reach p 0 = true → answers (.claimStewardship p) s fun t =>
      (p ≠ s.stew.port → (s.port s.stew.port).up = false → t.stew = { port := p, changes := inc32 s.stew.changes } ∧ (t.fn p 0).stewResult = 0) ∧
      (p = s.stew.port ∨ (s.port s.stew.port).up = true → t.stew = s.stew ∧ (t.fn p 0).stewResult = 3)) ∧
    (s.isReady = true → (s.port s.stew.port).wasReset = true → (s.port s.stew.port).up = false → s.odv 0x4100 3 = 1 →
      1000000 * s.odv 0x4100 4 ≤ s.ts - (s.port s.stew.port).resetTs → (s.port !s.stew.port).up = true →
      answers .stewardAutoPass s fun t => t.stew = { port := !s.stew.port, changes := inc32 s.stew.changes }))

/-! ## Object dictionary, Hedgerow, log, march, report (13, 15, 17) -/

/-- The dictionary serves its oldest request and answers a mailbox: a read returns the entry in its own width, the highest subindex for subindex 0, status 1 where there is no entry, 2 where it is write-only, 7 and what was captured
while the mesh is unpowered; a write that a check refuses changes nothing but the answer; a permitted Stored write waits for both copies, and then its value is in force. -/
def Obligations.DictionaryServes : Prop :=
  ∀ (s : State), s.serves = true →
    (s.dictQ = [] → answers (.dictionaryServe 0) s fun t => t = s) ∧
    (∀ (p : PortId) (f : FnId) (i sub : Nat) (d : List Byte) (rest : List DictReq), s.dictQ = .mailbox p f true false i sub d :: rest →
      answers (.dictionaryServe 0) s fun t => t.dictQ = rest ∧ (t.fn p f.val).mbox.busy = false ∧ (t.fn p f.val).event.testBit 0 = true ∧
        t.od = s.od ∧ t.tiles = s.tiles ∧ t.tiers = s.tiers ∧
        (∀ r, sub ≠ 0 → odRow i sub = some r → r.right ≠ 2 → r.ty < 8 →
          (s.power.isolated = false ∨ heldElsewhere r i sub = false → (t.fn p f.val).mbox.status = 0 ∧ (t.fn p f.val).mbox.rlength = r.len ∧
            (t.fn p f.val).mbox.data.read 0 r.len = leBytes r.len (s.odNumber i sub)) ∧
          (s.power.isolated = true → heldElsewhere r i sub = true → (t.fn p f.val).mbox.status = 7 ∧
            (t.fn p f.val).mbox.data.read 0 r.len = leBytes r.len (SMap.get r.dflt s.captured (odKey i sub)))) ∧
        (sub ≠ 0 → odRow i sub = none → (t.fn p f.val).mbox.status = 1 ∧ (t.fn p f.val).mbox.rlength = 0) ∧
        (∀ r, sub ≠ 0 → odRow i sub = some r → r.right = 2 → (t.fn p f.val).mbox.status = 2) ∧
        (∀ n, sub = 0 → odTop i = some n → (t.fn p f.val).mbox.status = 0 ∧ (t.fn p f.val).mbox.data.read 0 1 = leBytes 1 n)) ∧
    (∀ (p : PortId) (f : FnId) (i sub : Nat) (d : List Byte) (rest : List DictReq) (q : DictReq), q = .mailbox p f true true i sub d → s.dictQ = q :: rest →
      answers (.dictionaryServe 0) s fun t => t.dictQ = rest ∧
        (s.writeStatus q i sub d ≠ 0 → (t.fn p f.val).mbox.busy = false ∧ (t.fn p f.val).mbox.status = s.writeStatus q i sub d ∧ t.od = s.od ∧
          t.stored = s.stored ∧ t.power.paramWrites = s.power.paramWrites ∧ t.log.readSel = s.log.readSel ∧ t.march = s.march ∧ t.report = s.report) ∧
        (sub ≠ 0 → odRow i sub = none → (t.fn p f.val).mbox.status = 1) ∧
        (∀ r, sub ≠ 0 → odRow i sub = some r → (r.right = 0 → (t.fn p f.val).mbox.status = 2) ∧
          (r.right = 1 → r.ty ≤ 7 → d.length ≠ r.len → (t.fn p f.val).mbox.status = 4) ∧
          (r.right = 1 → r.ty ≤ 7 → d.length = r.len → f ≠ 0 → (t.fn p f.val).mbox.status = 5) ∧
          (r.right = 1 → r.ty ≤ 7 → d.length = r.len → f = 0 → p = s.stew.port → odInRange r i sub (leNat d) = false → (t.fn p f.val).mbox.status = 3) ∧
          (r.cls = 2 → s.writeStatus q i sub d = 0 → t.stored = s.stored ++ [⟨i, sub, d, q⟩] ∧ (t.fn p f.val).mbox = (s.fn p f.val).mbox))) ∧
    (∀ (p : PortId) (f : FnId) (i sub i' sub' : Nat) (d d' : List Byte) (b : Bool) (rest : List StoredWrite),
      s.stored = ⟨i, sub, d, .mailbox p f true b i' sub' d'⟩ :: rest → (i ≠ 0x8000 ∨ sub ≠ 2) → answers .storedWriteDone s fun t =>
        t.stored = rest ∧ t.odv i sub = odField i (leNat d) ∧ t.power.paramWrites = add64 s.power.paramWrites 1 ∧ (t.fn p f.val).mbox.status = 0 ∧
        (t.fn p f.val).mbox.busy = false ∧ t.ownerKey = s.ownerKey)

/-- OD 0x8000.02 is set-once: a write of it is performed only while all of its bytes are zero, and any later write is refused with status 0x02, whoever asks and whatever it would write. -/
def Obligations.OwnerKeySetOnce : Prop :=
  (∀ (s : State) (src seq : Nat) (d : List Byte) (rest : List DictReq), s.serves = true → s.dictQ = .hedgerow src seq 3 0x8000 2 d :: rest →
    (s.ownerNow.any (· != 0#8) = true → s.hrLink true = true → s.hrLink false = true → s.linesIdle → answers (.dictionaryServe 0) s fun t =>
      sentBoth s t (s.hrFrame 4 src seq 0 (leBytes 2 0x8000 ++ leBytes 1 2 ++ leBytes 1 2)) ∧ t.stored = s.stored ∧ t.ownerKey = s.ownerKey) ∧
    (s.ownerNow.any (· != 0#8) = false → d.length ≤ 64 → answers (.dictionaryServe 0) s fun t =>
      t.stored = s.stored ++ [⟨0x8000, 2, d, .hedgerow src seq 3 0x8000 2 d⟩])) ∧
  ∀ (s : State) (p : PortId) (f : FnId) (d : List Byte) (rest : List DictReq), s.serves = true → s.dictQ = .mailbox p f true true 0x8000 2 d :: rest →
    (s.ownerNow.any (· != 0#8) = true → answers (.dictionaryServe 0) s fun t =>
      (t.fn p f.val).mbox.status = 2 ∧ (t.fn p f.val).mbox.busy = false ∧ t.stored = s.stored ∧ t.ownerKey = s.ownerKey) ∧
    (s.ownerNow.any (· != 0#8) = false → f = 0 → p = s.stew.port → d.length ≤ 64 → answers (.dictionaryServe 0) s fun t =>
      t.stored = s.stored ++ [⟨0x8000, 2, d, .mailbox p f true true 0x8000 2 d⟩] ∧
      (s.stored = [] → answers .storedWriteDone t fun u => u.ownerKey = d ∧ (u.fn p f.val).mbox.status = 0))

/-- Frames: one of this module's own comes off the ring; one for another node goes on with one hop fewer; one for this node comes off and is accepted once; a malformed frame, one with no hops left and a second copy are counted.
With both links up every response leaves in both directions. READ and WRITE requests queue up to sixteen, a WRITE without permission is answered 0x05 in its turn, a repeated request gets the kept response; DESCRIBE, PROBE and HANDOVER are
answered. A transit frame waits in its direction's buffer of 3,076 bytes while the line carries another, and is dropped and counted where it finds no room there. (The other clauses are of idle lines.)

Sweeps and notices: a sweep falls due every 10 ms and, where sweeps are enabled, carries the next counter in both directions; an acknowledged notice is no more resent and its record counts as read; one not acknowledged for
50 ms is sent again, at most three times, and then dropped and counted. -/
def Obligations.HedgerowServicesAndNotices : Prop :=
  (∀ (s : State) (b : List Byte) (f : HFrame) (up : Bool) (w : List Byte), s.serves = true → s.hrLink up = true → f = frameOf b → malformed b = false → f.hops ≠ 0 →
    f.src ≠ s.hr.addr → s.hrForMe f = false → w = onWire (putAt b 17 [BitVec.ofNat 8 (f.hops - 1)]) true → s.ts < (s.hrLine up).free →
    answers (.hedgerowFrame up b true true) s fun t => t.outbox = s.outbox ∧ t.hrLine (!up) = s.hrLine (!up) ∧
      (3076 < (s.hrLine up).held + w.length → t = s.hrCount 6 1) ∧
      ((s.hrLine up).held + w.length ≤ 3076 → t.hrLine up = { s.hrLine up with transit := (s.hrLine up).transit ++ [w] })) ∧
  (∀ (s : State), s.serves = true → s.hrLink true = true → s.hrLink false = true → s.linesIdle →
    (∀ (b : List Byte) (f : HFrame) (up : Bool), f = frameOf b →
      (malformed b = true → answers (.hedgerowFrame up b true true) s fun t => t = s.hrCount 3 1) ∧
      (malformed b = false → f.hops = 0 → answers (.hedgerowFrame up b true true) s fun t => t = s.hrCount 4 1) ∧
      (malformed b = false → f.hops ≠ 0 → f.src = s.hr.addr → f.sa = ownMac → answers (.hedgerowFrame up b true true) s fun t => t = s) ∧
      (malformed b = false → f.hops ≠ 0 → f.src ≠ s.hr.addr → s.hrForMe f = false → answers (.hedgerowFrame up b true true) s fun t =>
        ∀ w, w = onWire (putAt b 17 [BitVec.ofNat 8 (f.hops - 1)]) true → w.length ≤ 3076 →
          t = ({ s with outbox := .hedgerow up w :: s.outbox } : State).setLine up { s.hrLine up with free := s.ts + lineTime w, lastOwn := false }) ∧
      (malformed b = false → f.hops ≠ 0 → f.src ≠ s.hr.addr → s.hrForMe f = true → f.dst ≠ 0xFFFF → answers (.hedgerowFrame up b true true) s fun t =>
        t.outbox = s.outbox ∧
        (s.hr.seen.contains (f.src, f.seq, f.try_) = true → t = s.hrCount 5 1) ∧
        (s.hr.seen.contains (f.src, f.seq, f.try_) = false → actedOn f.service = true → t.hr.inbox = s.hr.inbox ++ [f] ∧
          t.hr.seen.contains (f.src, f.seq, f.try_) = true))) ∧
    (∀ (f : HFrame) (rest : List HFrame), s.hr.inbox = f :: rest → s.hrKept f.src f.seq = none →
      (∀ q ∈ s.dictQ, ∀ a b c i j d, q = .hedgerow a b c i j d → a ≠ f.src ∨ b ≠ f.seq) →
      (∀ w ∈ s.stored, ∀ a b c i j d, w.req = .hedgerow a b c i j d → a ≠ f.src ∨ b ≠ f.seq) →
      (f.service = 1 → s.dictQ.length < 16 → answers .readReq s fun t => t.hr.inbox = rest ∧ t.outbox = s.outbox ∧
        t.dictQ = s.dictQ ++ [.hedgerow f.src f.seq 1 (fieldAt f.payload 0 2) (fieldAt f.payload 2 1) []]) ∧
      (f.service = 3 → s.hrMayWrite f = true → s.dictQ.length < 16 → answers .writeReq s fun t => t.hr.inbox = rest ∧ t.outbox = s.outbox ∧
        t.dictQ = s.dictQ ++ [.hedgerow f.src f.seq 3 (fieldAt f.payload 0 2) (fieldAt f.payload 2 1) ((f.payload.drop 8).take (fieldAt f.payload 4 2))]) ∧
      (f.service = 3 → s.hrMayWrite f = false → s.dictQ.length < 16 → answers .writeReq s fun t => t.hr.inbox = rest ∧ t.outbox = s.outbox ∧
        t.dictQ = s.dictQ ++ [.hedgerow f.src f.seq 4 (fieldAt f.payload 0 2) (fieldAt f.payload 2 1) []]) ∧
      (f.service = 5 → s.dictQ ≠ [] → s.dictQ.length < 16 → answers .describeReq s fun t => t.hr.inbox = rest ∧ t.outbox = s.outbox ∧
        t.dictQ = s.dictQ ++ [.hedgerow f.src f.seq 5 (fieldAt f.payload 0 2) (fieldAt f.payload 2 1) []]) ∧
      (f.service = 5 → s.dictQ = [] → answers .describeReq s fun t => t.hr.inbox = rest ∧ t.dictQ = s.dictQ ∧
        ∃ d, d = describe (fieldAt f.payload 0 2) (fieldAt f.payload 2 1) ∧ sentBoth s t (s.hrFrame 6 f.src f.seq 0
          (leBytes 2 (fieldAt f.payload 0 2) ++ leBytes 1 (fieldAt f.payload 2 1) ++ (d.take 4).flatMap (leBytes 1) ++ zeros 1 ++ leBytes 2 (d.getD 4 0)))) ∧
      (f.service = 0x30 → answers .handoverReq s fun t => t.hr.inbox = rest ∧ ∃ st port m, st = s.handoverStatus f ∧
        sentBoth { s with outbox := m } t (s.hrFrame 0x31 f.src f.seq 0 (leBytes 1 st ++ leBytes 1 (1 + b2n port))) ∧
        (st = 0 → port = (fieldAt f.payload 0 1 == 2) ∧ t.stew = if port = s.stew.port then s.stew else { port := port, changes := inc32 s.stew.changes }) ∧
        (st ≠ 0 → port = s.stew.port ∧ t.stew = s.stew ∧ m = s.outbox))) ∧
    (∀ (src seq i sub : Nat) (d : List Byte) (rest : List DictReq), s.dictQ = .hedgerow src seq 4 i sub d :: rest → answers (.dictionaryServe 0) s fun t =>
      t.dictQ = rest ∧ t.od = s.od ∧ t.stored = s.stored ∧ t.hr.kept = s.hr.kept ∧
        sentBoth s t (s.hrFrame 4 src seq 0 (leBytes 2 i ++ leBytes 1 sub ++ leBytes 1 5))) ∧
    (∀ (f : HFrame) (rest : List HFrame) (k : Nat × List Byte), s.hr.inbox = f :: rest → s.hrKept f.src f.seq = some k →
      ∀ n c, (n, c) ∈ [(1, Instr.readReq), (3, .writeReq), (5, .describeReq), (0x30, .handoverReq)] → f.service = n → answers c s fun t =>
        t.hr.inbox = rest ∧ t.dictQ = s.dictQ ∧ t.stew = s.stew ∧ sentBoth s t (s.hrFrame k.1 f.src f.seq 0 k.2)) ∧
    (∀ (f : HFrame) (rest : List HFrame), s.hr.inbox = f :: rest → f.service = 0x40 → answers .probe s fun t => t.hr.inbox = rest ∧
      sentBoth s t (s.hrFrame 0x41 f.src f.seq 0 (beBytes 6 ownMac ++ leBytes 2 s.hr.addr ++ leBytes 1 s.power.slotId ++ leBytes 1 s.power.pstate ++
        leBytes 2 0x8812 ++ leBytes 2 0xB0 ++ leBytes 1 s.hrFlags)))) ∧
  (∀ (s : State), s.serves = true → s.hrLink true = true → s.hrLink false = true → s.linesIdle →
    (s.hr.sweepAt + 10000000 ≤ s.ts → answers .sweep s fun t => t.hr.sweepAt = s.hr.sweepAt + 10000000 ∧
      (s.odNow 0x1100 5 = 0 → t.outbox = s.outbox ∧ t.hr.sweepCtr = s.hr.sweepCtr) ∧
      (s.odNow 0x1100 5 ≠ 0 → t.hr.sweepCtr = (s.hr.sweepCtr + 1) % 65536 ∧ t.outbox.length = s.outbox.length + 2 ∧
        ∃ f : HFrame, sentBoth s t f ∧ f.service = 0x10 ∧ f.dst = s.odNow 0x1100 4 ∧ f.src = s.hr.addr ∧ f.da = groupMac ∧
          f.payload.take 2 = leBytes 2 ((s.hr.sweepCtr + 1) % 65536) ∧ (f.payload.drop 8).take 8 = leBytes 8 s.ts)) ∧
    (s.ts < s.hr.sweepAt + 10000000 → answers .sweep s fun t => t = s) ∧
    (∀ (f : HFrame) (rest : List HFrame), s.hr.inbox = f :: rest → f.service = 0x21 → s.hr.notices = [] →
      s.hr.awaiting.any (·.seq == fieldAt f.payload 0 4) = true → answers .noticeAck s fun t => t.hr.inbox = rest ∧
        t.hr.awaiting = s.hr.awaiting.filter (·.seq != fieldAt f.payload 0 4) ∧
        ∀ r ∈ t.log.records, r.seq = fieldAt f.payload 0 4 → r.read = true) ∧
    (∀ seq n, s.hr.awaiting.find? (·.seq == seq) = some n → n.sent + 50000000 ≤ s.ts →
      (n.tries < 3 → answers (.noticeResend seq) s fun t => sentBoth s t (s.noticeFrame { n with tries := n.tries + 1, sent := s.ts }) ∧
        t.hr.awaiting.find? (·.seq == seq) = some { n with tries := n.tries + 1, sent := s.ts }) ∧
      (3 ≤ n.tries → s.hr.notices = [] → answers (.noticeResend seq) s fun t => t.outbox = s.outbox ∧
        t.hr.awaiting = s.hr.awaiting.filter (·.seq != seq) ∧ SMap.get 0 t.hr.cnt 9 = satAdd 32 (SMap.get 0 s.hr.cnt 9) 1)))

/-- The log, the march and the report. The event of lowest source in the oldest beat becomes the newest record, with the next sequence number and its severity, and both PFs are told; a full log loses its oldest record; where spilling is on, a write of the
record's 64 bytes to its place in the ring leaves as an access of the island's. The march's end gives its result, zeroes the tiles' memories where it was destructive and else keeps them, and releases the
boundary, which waits for step-quiet where that has fallen. A report is made with its nonce in it, or fails without the mesh or the key. -/
def Obligations.LogMarchReport : Prop :=
  ∀ (s : State),
    (∀ e r, s.serves = true → firstEvent s.log.intake = some e → s.power.isolated = false → s.odv 0x7801 1 ≠ 0 →
      r = ({ seq := nextLogSeq s.log.seq, ev := e, sev := severityOf e.code, read := false } : LogRec) → answers .eventIntake s fun t => ∃ y : Txn, t.txns = s.txns ++ [y] ∧
        y.agent = .housekeeping ∧ y.kind = .write ∧ y.part = none ∧ y.dest = ⟨none, s.odv 0x7801 1 + 64 * (r.seq % s.odv 0x7801 2)⟩ ∧ y.data = ⟨r.bytes, false⟩) ∧
    (∀ e, s.serves = true → firstEvent s.log.intake = some e → s.power.isolated = false → s.odv 0x7801 1 = 0 → answers .eventIntake s fun t =>
      t.log.intake = s.log.intake.erase e ∧ t.log.seq = nextLogSeq s.log.seq ∧
      t.log.records = (if 4096 ≤ s.log.records.length then s.log.records.drop 1 else s.log.records) ++
        [{ seq := nextLogSeq s.log.seq, ev := e, sev := severityOf e.code, read := false }] ∧
      (t.fn false 0).event.testBit 5 = true ∧ (t.fn true 0).event.testBit 5 = true ∧ t.tiles = s.tiles ∧ t.tiers = s.tiers) ∧
    (∀ m, s.isReady = true → s.march.running ≠ 0 → s.drain.heldMarch = true → s.drain.heldImage = false → s.march.began + marchTime s.march.running ≤ s.ts →
      s.noWait (s.settle (s.endMarch m)) → answers (.marchDone m) s fun t =>
      t.march.running = 0 ∧ t.march.result = marchResult m ∧ t.march.columns = m.columns ∧ t.drain.heldMarch = false ∧
      (s.drain.quiet = true → t.drain.active = false) ∧ (s.drain.quiet = false → t.drain = { s.drain with heldMarch := false }) ∧
      ∀ v, (t.tile v).scratch = (if s.march.running = 3 then [] else (s.tile v).scratch) ∧
        (t.tile v).vreg = (if s.march.running = 3 then [] else (s.tile v).vreg) ∧ (t.tile v).acc = (if s.march.running = 3 then [] else (s.tile v).acc)) ∧
    (s.serves = true → s.report.state = 1 →
      (s.power.isolated = false → s.keyReady = true → s.imageRuns = false → answers .reportDone s fun t => t.report.state = 2 ∧
        t.report.nonce = s.report.nonce ∧ t.report.bytes.take 8 = leBytes 4 0x5250414A ++ leBytes 2 1 ++ (t.report.bytes.drop 6).take 2 ∧
        (t.report.bytes.drop 16).take 64 = padTo 64 s.report.nonce ∧ (∀ k, k < 8 → (t.tier k).doze = false) ∧ t.tiles = s.tiles ∧ t.units = s.units) ∧
      (s.power.isolated = true ∨ s.keyReady = false → answers .reportDone s fun t => t = { s with report := { s.report with state := 3 } }) ∧
      (s.power.isolated = false → s.keyReady = true → s.imageRuns = true → answers .reportDone s fun t => t = s))

/-! ## Briar (12) -/

/-- The states of a Briar port: the connector's pin, loss and detection of the signal, the end of training in 60 ms, the IDENT exchange and 1 ms without progress move it as R394 says; leaving UP discards the replay buffer and what waits;
no other port moves; and every UP port is given the new states to send (R406). A port trains on all 16 lanes or on the half of them without a failed one. (The IDENT exchange waits until the port's buffer sets are
free of what came before: the model's choice, log 117.)

Frames at a port that is UP: one that the code, the CRC and SEQ accept advances what is expected, and a packet that lies whole in it is delivered, while one whose data slots are marked abandoned is dropped; any other frame is discarded,
changes nothing of what waits and is answered by a frame that carries NAK and the last accepted SEQ; a NAK without progress has every unacknowledged frame sent again with its credits, and the sixteenth such replay retrains the port. (A frame
leaves for each one received: the model's choice, log 75.)

A frame's 1,040 bytes, and a packet's header slot, give back every field that they were made of, and the frame's CRC proves right (R397, R404). -/
def Obligations.BriarPortsAndFrames : Prop :=
  (∀ (s : State) (b : BriarId) (x : BriarPort), s.isReady = true → x = s.bport b.val → x.state ≠ 0 →
    (∀ cmd new, (x.state = 1 ∧ cmd = Instr.cblPrsntChange b true ∧ new = 2) ∨ (x.state ≠ 1 ∧ cmd = .cblPrsntChange b false ∧ new = 1) ∨
        (3 ≤ x.state ∧ cmd = .lossOfSignal b ∧ new = 2) ∨ (x.state = 2 ∧ cmd = .signalDetect b ∧ new = 3) ∨
        ((x.state = 3 ∨ x.state = 6) ∧ x.since + 60000000 ≤ s.ts ∧ cmd = .trainingTimeout b ∧ new = 2) ∨
        (∃ l r n p q, (x.state = 3 ∨ x.state = 6) ∧ lanesInUse l ≠ 0 ∧ s.setsFree b.val = true ∧ s.ts ≤ x.since + 60000000 ∧ cmd = .ident b l r n p q ∧
          new = (if r = s.briar.ringId ∧ n = s.briar.n ∧ (p, q) = s.expectedEnd b.val then 5 else 4)) ∨
        (x.state = 5 ∧ x.replay ≠ [] ∧ x.ackTime + 1000000 ≤ s.ts ∧ cmd = .ackTimeout b ∧ new = 6) →
      answers cmd s fun t => (t.bport b.val).state = new ∧ (t.bport b.val).since = s.ts ∧
        (∀ c, c ≠ b.val → (t.bport c).state = (s.bport c).state ∧ (t.bport c).replay = (s.bport c).replay ∧ (t.bport c).inbox = (s.bport c).inbox) ∧
        (x.state = 5 → (t.bport b.val).replay = [] ∧ (t.bport b.val).transit = [] ∧ (t.bport b.val).nextSeq = 0 ∧ (t.bport b.val).expect = 0 ∧
          (t.bport b.val).queue = [] ∧ (t.bport b.val).tx = []) ∧
        (new = 5 → (t.bport b.val).replay.map (·.seq) = [0] ∧ (t.bport b.val).transit = [] ∧ (t.bport b.val).nextSeq = 1 ∧ (t.bport b.val).expect = 0 ∧
          ∀ l r n p q, cmd = .ident b l r n p q → (t.bport b.val).lanes = lanesInUse l) ∧
        (s.briar.n ≠ 0 → t.briar.lsaSeq = (s.briar.lsaSeq + 1) % 65536 ∧ ∀ c, c < 4 → c ≠ b.val → (t.bport c).state = 5 → ∃ q ∈ (t.bport c).queue, q.ty = 6 ∧
          q.extra = (s.briar.lsaSeq + 1) % 65536 :: (List.range 4).map fun i => (t.bport i).state) ∧
        (t.bport b.val).cable = (match cmd with | .cblPrsntChange _ c => c | _ => x.cable) ∧ t.txns = s.txns) ∧
    (3 ≤ x.state → answers (.lossOfSignal b) s fun t => SMap.get 0 (t.bport b.val).cnt 8 = satAdd 32 (SMap.get 0 x.cnt 8) 1) ∧
    (∀ l r n p q, (x.state = 3 ∨ x.state = 6) → lanesInUse l ≠ 0 → s.setsFree b.val = true → s.ts ≤ x.since + 60000000 → s.log.intake.length < 62 → s.power.isolated = false →
      ¬ (r = s.briar.ringId ∧ n = s.briar.n ∧ (p, q) = s.expectedEnd b.val) → answers (.ident b l r n p q) s fun t =>
        ∃ e ∈ t.log.intake, e.code = 0x61 ∧ e.source = 0x8C + b.val)) ∧
  (∀ (s : State) (b : BriarId) (f : FrameIn) (x : BriarPort) (g : BFrame), s.isReady = true → x = s.bport b.val → x.state = 5 → g = linkFrame f.bytes →
    (frameSound f.bytes = true → f.fec = true → g.seq = x.expect → g.nak = false → answers (.briarFrameReceive b f) s fun t =>
      (t.bport b.val).state = 5 ∧ (t.bport b.val).expect = (x.expect + 1) % 4096 ∧ (t.bport b.val).nakSent = false ∧
      SMap.get 0 (t.bport b.val).cnt 2 = add64 (SMap.get 0 x.cnt 2) 1 ∧
      (∀ n p, g.slots.map (·.code) = 1 :: List.replicate n 2 ++ List.replicate (15 - n) 0 → p = pktOf (g.slots.getD 0 {}).bytes → grainsAfter (g.slots.getD 0 {}).bytes = n →
        1 ≤ p.ty → p.ty ≤ 5 → p.dst = s.briar.pos →
        (t.bport b.val).inbox = x.inbox ++ [{ p with data := ((g.slots.drop 1).take n).map (·.bytes), via := some (b.val, p.set, x.turn) }] ∧ t.drain.quiet = false) ∧
      (∀ n, g.slots.map (·.code) = 1 :: List.replicate (n + 1) 3 ++ List.replicate (14 - n) 0 → grainsAfter (g.slots.getD 0 {}).bytes = n + 1 →
        (t.bport b.val).inbox = x.inbox ∧ t.drain = s.drain)) ∧
    (frameSound f.bytes = false ∨ f.fec = false ∨ g.seq ≠ x.expect → x.replay.length < 256 → answers (.briarFrameReceive b f) s fun t =>
      (t.bport b.val).state = 5 ∧ (t.bport b.val).expect = x.expect ∧ (t.bport b.val).nakSent = true ∧ (t.bport b.val).inbox = x.inbox ∧
      (∃ y : BFrame, t.outbox = .briar b.val y.bytes :: s.outbox ∧ y.seq = x.nextSeq ∧ y.ack = (x.expect + 4095) % 4096 ∧ y.nak = true ∧
        (t.bport b.val).replay = x.replay ++ [y]) ∧ (t.bport b.val).nextSeq = (x.nextSeq + 1) % 4096 ∧ t.drain = s.drain) ∧
    (frameSound f.bytes = true → f.fec = true → g.seq = x.expect → g.nak = true → g.ack = x.lastAck → x.replay ≠ [] →
      answers (.briarFrameReceive b f) s fun t =>
        (x.stuck + 1 < 16 → f.bufErrs = [] → (t.bport b.val).state = 5 ∧ (t.bport b.val).stuck = x.stuck + 1 ∧
          SMap.get 0 (t.bport b.val).cnt 5 = satAdd 32 (SMap.get 0 x.cnt 5) 1 ∧ (t.bport b.val).replay.take x.replay.length = x.replay ∧
          ∀ y ∈ x.replay, Out.briar b.val ({ y with ack := x.expect % 4096, nak := false } : BFrame).bytes ∈ t.outbox) ∧
        (16 ≤ x.stuck + 1 → (t.bport b.val).state = 6 ∧ (t.bport b.val).replay = []))) ∧
  (∀ f : BFrame, f.seq < 4096 → f.ack < 4096 → f.crSet < 4 → f.crSlots < 2 ^ 14 → f.slots.length = 16 → (∀ c ∈ f.slots, c.code < 4 ∧ c.bytes.length = 64) →
    f.bytes.length = 1040 ∧ frameSound f.bytes = true ∧ linkFrame f.bytes = { f with slots := f.slots.map fun c => { c with flow := none } }) ∧
  (∀ (p : BriarPkt) (n : Nat) (h : BriarPkt), p.ty < 16 → p.dst < 64 → p.src < 64 → n < 64 → p.part < 16 → p.status < 16 → p.tag < 65536 → p.op < 16 → p.addr < 2 ^ 64 →
    p.len < 4096 → p.poison < 2 ^ 32 → h = pktOf (p.header n) → grainsAfter (p.header n) = n ∧ (p.header n).length = 64 ∧
      (h.ty, h.west, h.high, h.dst, h.src, h.part, h.status) = (p.ty, p.west, p.high, p.dst, p.src, p.part, p.status) ∧
      (h.tag, h.op, h.release, h.rtally, h.addr, h.len, h.poison) = (p.tag, p.op, p.release, p.rtally, p.addr, p.len, p.poison))

/-- Requests of other modules: the oldest waiting READ, WRITE or COMBINE becomes accesses, one for each grain, at the homes of its bytes, as an agent of the sender and in no partition; one that meets the control range or unmapped memory is answered
with its status and makes no access; a COMBINE of a Reserved operation is discarded and counted. -/
def Obligations.BriarRequestsServed : Prop :=
  ∀ (s : State) (b : BriarId) (p : BriarPkt) (k : TxKind) (cmd : Instr), s.isReady = true →
    (s.bport b.val).inbox.find? (·.isRequest) = some p →
    (p.ty = 1 ∧ k = .read ∧ cmd = .briarRead b) ∨ (p.ty = 2 ∧ k = .write ∧ cmd = .briarWrite b) ∨
      (p.ty = 3 ∧ (∃ c, combOf p.op = some c ∧ k = .combine c) ∧ cmd = .briarCombine b) →
    answers cmd s fun t => (t.bport b.val).inbox = (s.bport b.val).inbox.erase p ∧ t.tiers = s.tiers ∧ t.tiles = s.tiles ∧
      (refusedAt p.addr (min p.len 2048) = 0 → ∃ l : List Txn, t.txns = s.txns ++ l ∧
        l.map (fun y => (y.dest, y.len)) = (spanCuts p.addr (min p.len 2048)).map (fun c => ((⟨none, p.addr + c.1⟩ : FarAddr), c.2)) ∧
        ∀ y ∈ l, y.agent = .remote p.src ∧ y.kind = k ∧ y.part = none ∧ y.stage = .queued ∧ (y.rel.isSome = true ↔ p.release = true) ∧
          (p.ty ≠ 1 → y.data.bytes.length = y.len)) ∧
      (refusedAt p.addr (min p.len 2048) ≠ 0 → t.txns = s.txns ∧ t.briar.served = s.briar.served ∧
        ∀ w h, s.direction p.src = some w → s.nextHop w p.src = some h → ∃ q : BriarPkt,
          (t.bport (hopPort w h)).queue = (s.bport (hopPort w h)).queue ++ [q] ∧ q.ty = (if p.ty = 1 then 4 else 5) ∧ q.dst = p.src ∧ q.tag = p.tag ∧
          q.status = refusedAt p.addr (min p.len 2048))

/-- Responses: a READ_RESP or ACK closes the request of its tag and answers its access with the data or status it brings; a late one is counted and changes nothing else. LSAs: each is sent on every UP port with the next sequence number and the four
port states; a newer one is kept in the link map and an older one is not; an entry not refreshed for 5 ms counts as every port down, and keeps its sequence. -/
def Obligations.BriarResponsesAndLinkMap : Prop :=
  ∀ (s : State) (b : BriarId) (p : BriarPkt) (cmd : Instr), s.isReady = true →
    ((s.bport b.val).inbox.find? (fun y => y.isRequest == false) = some p → (p.ty = 4 ∧ cmd = .briarReadResp b) ∨ (p.ty = 5 ∧ cmd = .briarAck b) →
      answers cmd s fun t => (t.bport b.val).inbox = (s.bport b.val).inbox.erase p ∧
        (s.briar.reqs.find? (·.tag == p.tag) = none → t.txns = s.txns ∧ SMap.get 0 t.briar.cnt 3 = satAdd 32 (SMap.get 0 s.briar.cnt 3) 1) ∧
        (∀ r q, s.briar.reqs.find? (·.tag == p.tag) = some r → s.txn? r.txn = some q → q.status = 0 → t.briar.reqs = s.briar.reqs.filter (·.tag != p.tag) ∧
          (p.ty = 5 → answeredWith t r.txn {} p.status) ∧
          (p.ty = 4 → p.status = 0 → answeredWith t r.txn ⟨padTo q.len ((p.data.getD 0 []).drop (q.dest.addr % 64)), p.poison.testBit 0⟩ 0) ∧
          (p.ty = 4 → p.status ≠ 0 → q.kind = .read → answeredWith t r.txn ⟨noData q.len, true⟩ p.status))) ∧
    (s.briar.n ≠ 0 → answers .lsaSend s fun t => t.briar.lsaSeq = (s.briar.lsaSeq + 1) % 65536 ∧
      ∀ c, c < 4 → ((s.bport c).state ≠ 5 → t.bport c = s.bport c) ∧
        ((s.bport c).state = 5 → ∃ q : BriarPkt, (t.bport c).queue = (s.bport c).queue ++ [q] ∧ q.ty = 6 ∧ q.src = s.briar.pos ∧
          q.extra = (s.briar.lsaSeq + 1) % 65536 :: (List.range 4).map fun i => (s.bport i).state)) ∧
    ((s.bport b.val).inbox.find? (fun y => y.isRequest == false) = some p → p.ty = 6 → p.src ≠ s.briar.pos → answers (.lsa b) s fun t =>
      (SMap.get none s.briar.map p.src = none → SMap.get none t.briar.map p.src = some ⟨p.extra.getD 0 0 % 65536, (p.extra.drop 1).take 4, s.ts⟩) ∧
      (∀ e, SMap.get none s.briar.map p.src = some e → SMap.get none t.briar.map p.src =
        (if seqLater 16 (p.extra.getD 0 0 % 65536) e.seq then some ⟨p.extra.getD 0 0 % 65536, (p.extra.drop 1).take 4, s.ts⟩ else some e))) ∧
    (∀ (pos : Fin 64) e, SMap.get none s.briar.map pos.val = some e → answers (.linkMapExpire pos) s fun t =>
      SMap.get none t.briar.map pos.val = (if e.time + 5000000 ≤ s.ts then some { e with states := [] } else some e))

/-- A request that has no response within OD 0x4800.06 µs completes at its requester with TIMEOUT, status 4, and no earlier. The entry is a Stored U32, 100 by default, and takes 10 to 100,000. -/
def Obligations.RemoteRequestTimesOut : Prop :=
  (∃ r, odRow 0x4800 6 = some r ∧ r.cls = 2 ∧ r.len = 4 ∧ r.dflt = 100 ∧ ∀ v, v < 2 ^ 32 → (odInRange r 0x4800 6 v = true ↔ 10 ≤ v ∧ v ≤ 100000)) ∧
  ∀ (s : State) (r : RemoteReq) (q : Txn), s.isReady = true → s.briar.reqs.find? (·.tag == r.tag) = some r → s.txn? r.txn = some q → q.status = 0 →
    (r.sent + 1000 * s.odv 0x4800 6 ≤ s.ts → answers (.remoteTimeout r.tag) s fun t =>
      answeredWith t r.txn (if q.kind = .read then ⟨noData q.len, true⟩ else {}) 4 ∧ (∀ y ∈ t.briar.reqs, y.tag ≠ r.tag) ∧
      SMap.get 0 t.briar.cnt 1 = satAdd 32 (SMap.get 0 s.briar.cnt 1) 1) ∧
    (s.ts < r.sent + 1000 * s.odv 0x4800 6 → answers (.remoteTimeout r.tag) s fun t => t = { s with power := t.power })
end

