-- ==== Sys2Proof/Laws/Clock.lean ====
section
/-!
SUPPORT. The timebase as its readers capture it (02 R61): how old a captured value may be, and what that means for the units' time limit (08 R253).
-/

namespace Sys2Proof.Machine

theorem State.fabricTs_le (s : State) (n : Nat) : s.fabricTs n ≤ s.ts := Nat.sub_le _ _

theorem State.fabricTs_ge (s : State) (n : Nat) : s.ts - 120 ≤ s.fabricTs n := by
  unfold State.fabricTs
  omega

/-- A command that has begun at the timebase's value has not run past the limit. -/
theorem State.overTime_fresh {s : State} {u : Nat} {r : URun} (h : s.ts ≤ r.startTs) : s.overTime u r = false := by
  have := s.fabricTs_le (0x200 + u)
  exact decide_eq_false (by unfold State.unitTs; omega)

/-- One that has run more than 120 ns past the limit is late for every reader. -/
theorem State.overTime_late {s : State} {u : Nat} {r : URun} (h : 1000 * s.odv 0x6040 3 + r.startTs + r.pauseNs + 120 < s.ts) : s.overTime u r = true := by
  have := s.fabricTs_ge (0x200 + u)
  exact decide_eq_true (by unfold State.unitTs; omega)

/-- A running command in time: what its row does. -/
theorem State.runPrim_inTime {s : State} {u prim : Nat} {i : UnitIn} {r : URun} (hr : (s.unit u).running = some r)
    (hb : (r.computed || r.paused || r.cmd.bad || r.cmd.prim != prim) = false) (ht : s.overTime u r = false) :
    s.runPrim u prim i =
      match r.cmd.refused with
      | some n => s.unitFail (s.unitWork u r.acc) r 3 i.beats n
      | none =>
        if primEmpty prim r.cmd.params then s.unitFinish (s.unitWork u { r.acc with zeroLen := true }) r 0 i.beats []
        else
          let g := (s.unitUpset u i).primGo u i prim r.cmd.params
          match g.1 with
          | some q => g.2.primDone (q.1, q.2.1) q.2.2 i.beats
          | none => g.2 := by
  simp only [State.runPrim, hr, hb, ht]
  rfl

/-- A running micro-program in time: its store words in turn. -/
theorem State.runMicro_inTime {s : State} {u : Nat} {m : MicroIn} {i : UnitIn} {r : URun} (hr : (s.unit u).running = some r)
    (hb : (r.computed || r.paused || r.cmd.bad || r.cmd.prim != 0) = false) (ht : s.overTime u r = false)
    (ha : ((r.cmd.resultEn || r.cmd.tallyEn) && !r.cmd.addrOk) = false) :
    s.runMicro u m i = State.microWords u m.errs i (s.unitUpset u i) m.words := by
  simp only [State.runMicro, hr, hb, ht, ha]
  rfl

/-- A computed command in time completes once its writes are acknowledged. -/
theorem State.commandComplete_inTime {s : State} {u beats : Nat} {r : URun} (hr : (s.unit u).running = some r) (hc : r.computed = true)
    (ht : s.overTime u r = false) : s.commandComplete u beats = if r.acks = 0 then s.unitComplete u r else s := by
  simp [State.commandComplete, hr, hc, ht]

/-- PRIVET_TIME_LIMIT acts on a command that is late. -/
theorem State.timeLimit_late {s : State} {u beats : Nat} {r : URun} (hr : (s.unit u).running = some r) (hp : r.paused = false)
    (h : s.overTime u r = true) : s.timeLimit u beats = s.unitLimit u r beats := by
  simp [State.timeLimit, hr, hp, h]

end Sys2Proof.Machine
end

