-- ==== Sys2Proof/Laws/SMap.lean ====
section
/-!
SUPPORT. The laws of sparse maps: a read after a write, the canonical form, and the memory operations of the tiers that keep it.
-/

namespace Sys2Proof.Machine

variable {α : Type} [DecidableEq α] (d : α)

/-- A read of the key just written gives the value written. -/
@[simp] theorem SMap.get_set_self (m : SMap α) (k : Nat) (v : α) : SMap.get d (SMap.set d m k v) k = v := by
  induction m with
  | nil => by_cases h : v = d <;> simp [SMap.set, SMap.get, h]
  | cons e r ih =>
    obtain ⟨j, w⟩ := e
    rcases Nat.lt_trichotomy j k with h | h | h
    · simp [SMap.set, SMap.get, h, ih, Nat.ne_of_lt h]
    · subst h; simp [SMap.set, ih]
    · have h1 : ¬ j < k := by omega
      have h2 : j ≠ k := by omega
      by_cases hv : v = d
      · subst hv; simp [SMap.set, SMap.get, h1, h2, ih]
      · simp [SMap.set, SMap.get, h1, h2, hv]

/-- A write leaves every other key alone, whatever the default it is read with. -/
theorem SMap.get_set_ne (d' : α) (m : SMap α) {k k' : Nat} (v : α) (hk : k' ≠ k) :
    SMap.get d' (SMap.set d m k v) k' = SMap.get d' m k' := by
  induction m with
  | nil => by_cases hv : v = d <;> simp [SMap.set, SMap.get, hv, Ne.symm hk]
  | cons e r ih =>
    obtain ⟨j, w⟩ := e
    rcases Nat.lt_trichotomy j k with hj | hj | hj
    · simp [SMap.set, SMap.get, hj, ih]
    · subst hj
      simp [SMap.set, SMap.get, ih, Ne.symm hk]
    · have h1 : ¬ j < k := by omega
      have h2 : j ≠ k := by omega
      by_cases hv : v = d
      · subst hv; simp [SMap.set, SMap.get, h1, h2, ih]
      · simp [SMap.set, SMap.get, h1, h2, hv, Ne.symm hk]

/-- A change at a key, read there and elsewhere. -/
@[simp] theorem SMap.get_mod_self (m : SMap α) (k : Nat) (f : α → α) : SMap.get d (SMap.mod d m k f) k = f (SMap.get d m k) := by
  simp [SMap.mod]

theorem SMap.get_mod_ne (m : SMap α) {k k' : Nat} (f : α → α) (hk : k' ≠ k) :
    SMap.get d (SMap.mod d m k f) k' = SMap.get d m k' := SMap.get_set_ne d d m _ hk

/-- A lower bound of the keys may be lowered. -/
theorem SMap.wfFrom_mono {m : SMap α} {lo lo' : Nat} (h : SMap.wfFrom d lo m = true) (hl : lo' ≤ lo) : SMap.wfFrom d lo' m = true := by
  cases m with
  | nil => rfl
  | cons e r =>
    obtain ⟨j, w⟩ := e
    simp only [SMap.wfFrom, Bool.and_eq_true, decide_eq_true_eq] at h ⊢
    exact ⟨⟨by omega, h.1.2⟩, h.2⟩

/-- A write of the default below the keys of a canonical map lists nothing. -/
theorem SMap.set_default_of_lt {m : SMap α} {lo k : Nat} (h : SMap.wfFrom d lo m = true) (hk : k < lo) : SMap.set d m k d = m := by
  induction m generalizing lo with
  | nil => simp [SMap.set]
  | cons e r ih =>
    obtain ⟨j, w⟩ := e
    simp only [SMap.wfFrom, Bool.and_eq_true, decide_eq_true_eq] at h
    have h1 : ¬ j < k := by omega
    have h2 : j ≠ k := by omega
    simp [SMap.set, h1, h2, ih h.2 (show k < j + 1 by omega)]

/-- A write keeps the canonical form. -/
theorem SMap.wfFrom_set {m : SMap α} {lo k : Nat} (v : α) (h : SMap.wfFrom d lo m = true) (hk : lo ≤ k) :
    SMap.wfFrom d lo (SMap.set d m k v) = true := by
  induction m generalizing lo with
  | nil => by_cases hv : v = d <;> simp [SMap.set, SMap.wfFrom, hv, hk]
  | cons e r ih =>
    obtain ⟨j, w⟩ := e
    have h' := h
    simp only [SMap.wfFrom, Bool.and_eq_true, decide_eq_true_eq] at h
    rcases Nat.lt_trichotomy j k with hj | hj | hj
    · have := ih h.2 (show j + 1 ≤ k by omega)
      simp [SMap.set, SMap.wfFrom, hj, this, h.1.1, h.1.2]
    · subst hj
      simp only [SMap.set, Nat.lt_irrefl, if_false, if_true]
      exact ih (SMap.wfFrom_mono d h.2 (by omega)) hk
    · have h1 : ¬ j < k := by omega
      have h2 : j ≠ k := by omega
      by_cases hv : v = d
      · have e : SMap.set d r k v = r := by rw [hv]; exact SMap.set_default_of_lt d h.2 (show k < j + 1 by omega)
        simp only [SMap.set, h1, h2, hv, if_false, if_true] at e ⊢
        rw [e]; exact h'
      · simp only [SMap.set, h1, h2, hv, if_false, SMap.wfFrom, Bool.and_eq_true, decide_eq_true_eq]
        exact ⟨⟨hk, hv⟩, ⟨⟨by omega, h.1.2⟩, h.2⟩⟩

theorem SMap.wf_set {m : SMap α} (k : Nat) (v : α) (h : SMap.wf d m = true) : SMap.wf d (SMap.set d m k v) = true :=
  SMap.wfFrom_set d v h (Nat.zero_le k)

theorem SMap.wf_mod {m : SMap α} (k : Nat) (f : α → α) (h : SMap.wf d m = true) : SMap.wf d (SMap.mod d m k f) = true :=
  SMap.wf_set d k _ h

/-- Leaving entries out keeps the canonical form. -/
theorem SMap.wfFrom_filter {m : SMap α} {lo : Nat} (p : Nat × α → Bool) (h : SMap.wfFrom d lo m = true) :
    SMap.wfFrom d lo (m.filter p) = true := by
  induction m generalizing lo with
  | nil => rfl
  | cons e r ih =>
    obtain ⟨j, w⟩ := e
    simp only [SMap.wfFrom, Bool.and_eq_true, decide_eq_true_eq] at h
    by_cases hp : p (j, w) = true
    · simp only [List.filter_cons_of_pos hp, SMap.wfFrom, Bool.and_eq_true, decide_eq_true_eq]
      exact ⟨h.1, ih h.2⟩
    · rw [List.filter_cons_of_neg hp]
      exact ih (SMap.wfFrom_mono d h.2 (by omega))

theorem SMap.wf_drop {m : SMap α} (p : Nat → Bool) (h : SMap.wf d m = true) : SMap.wf d (SMap.drop m p) = true :=
  SMap.wfFrom_filter d _ h

/-- A write of bytes keeps the canonical form. -/
theorem ByteMap.wf_write {m : ByteMap} (a : Nat) (l : List Byte) (h : ByteMap.wf m = true) : ByteMap.wf (m.write a l) = true := by
  induction l generalizing m a with
  | nil => exact h
  | cons b bs ih => exact ih (a + 1) (SMap.wf_set 0#8 a b h)

/-! ## The memory operations of a tier -/

theorem Tier.wf_put {t : Tier} (off : Nat) (l : List Byte) (h : ByteMap.wf t.mem = true) : ByteMap.wf (t.put off l).mem = true := by
  induction l generalizing t off with
  | nil => exact h
  | cons b bs ih => exact ih (off + 1) (SMap.wf_set 0#8 off _ h)

theorem Tier.wf_forget {t : Tier} (page : Nat) (h : ByteMap.wf t.mem = true) : ByteMap.wf (t.forget page).mem = true := by
  simp only [ByteMap.wf, Tier.forget] at h ⊢
  exact SMap.wf_drop _ _ h

theorem Tier.wf_replaceRow {t : Tier} (page pch bank : Nat) (h : ByteMap.wf t.mem = true) :
    ByteMap.wf (t.replaceRow page pch bank).mem = true := by
  simp only [ByteMap.wf, Tier.replaceRow] at h ⊢
  exact SMap.wf_drop _ _ h

end Sys2Proof.Machine
end

