-- ==== Sys2Proof/Laws/State.lean ====
section
/-!
SUPPORT. What the named updates of the state leave alone, field by field, and what reading back what they wrote gives; then what the
shared operations over the state, which are no single update, leave alone.
-/

namespace Sys2Proof.Machine

variable (s : State)


/-! ## State.setTile -/

section
variable (t : Nat) (x : Tile)

@[simp] theorem State.setTile_pending : (s.setTile t x).pending = s.pending := rfl
@[simp] theorem State.setTile_ts : (s.setTile t x).ts = s.ts := rfl
@[simp] theorem State.setTile_free : (s.setTile t x).free = s.free := rfl
@[simp] theorem State.setTile_outbox : (s.setTile t x).outbox = s.outbox := rfl
@[simp] theorem State.setTile_txns : (s.setTile t x).txns = s.txns := rfl
@[simp] theorem State.setTile_nextId : (s.setTile t x).nextId = s.nextId := rfl
@[simp] theorem State.setTile_power : (s.setTile t x).power = s.power := rfl
@[simp] theorem State.setTile_hk : (s.setTile t x).hk = s.hk := rfl
@[simp] theorem State.setTile_od : (s.setTile t x).od = s.od := rfl
@[simp] theorem State.setTile_ownerKey : (s.setTile t x).ownerKey = s.ownerKey := rfl
@[simp] theorem State.setTile_captured : (s.setTile t x).captured = s.captured := rfl
@[simp] theorem State.setTile_dictQ : (s.setTile t x).dictQ = s.dictQ := rfl
@[simp] theorem State.setTile_stored : (s.setTile t x).stored = s.stored := rfl
@[simp] theorem State.setTile_log : (s.setTile t x).log = s.log := rfl
@[simp] theorem State.setTile_hr : (s.setTile t x).hr = s.hr := rfl
@[simp] theorem State.setTile_tileTags : (s.setTile t x).tileTags = s.tileTags := rfl
@[simp] theorem State.setTile_hedges : (s.setTile t x).hedges = s.hedges := rfl
@[simp] theorem State.setTile_launches : (s.setTile t x).launches = s.launches := rfl
@[simp] theorem State.setTile_launchPkts : (s.setTile t x).launchPkts = s.launchPkts := rfl
@[simp] theorem State.setTile_notices : (s.setTile t x).notices = s.notices := rfl
@[simp] theorem State.setTile_folds : (s.setTile t x).folds = s.folds := rfl
@[simp] theorem State.setTile_tiers : (s.setTile t x).tiers = s.tiers := rfl
@[simp] theorem State.setTile_units : (s.setTile t x).units = s.units := rfl
@[simp] theorem State.setTile_unitNotices : (s.setTile t x).unitNotices = s.unitNotices := rfl
@[simp] theorem State.setTile_laurel : (s.setTile t x).laurel = s.laurel := rfl
@[simp] theorem State.setTile_drain : (s.setTile t x).drain = s.drain := rfl
@[simp] theorem State.setTile_ports : (s.setTile t x).ports = s.ports := rfl
@[simp] theorem State.setTile_queues : (s.setTile t x).queues = s.queues := rfl
@[simp] theorem State.setTile_hostReads : (s.setTile t x).hostReads = s.hostReads := rfl
@[simp] theorem State.setTile_ops : (s.setTile t x).ops = s.ops := rfl
@[simp] theorem State.setTile_stew : (s.setTile t x).stew = s.stew := rfl
@[simp] theorem State.setTile_resetting : (s.setTile t x).resetting = s.resetting := rfl
@[simp] theorem State.setTile_buckets : (s.setTile t x).buckets = s.buckets := rfl
@[simp] theorem State.setTile_partCnt : (s.setTile t x).partCnt = s.partCnt := rfl
@[simp] theorem State.setTile_modCnt : (s.setTile t x).modCnt = s.modCnt := rfl
@[simp] theorem State.setTile_arbs : (s.setTile t x).arbs = s.arbs := rfl
@[simp] theorem State.setTile_briar : (s.setTile t x).briar = s.briar := rfl
@[simp] theorem State.setTile_march : (s.setTile t x).march = s.march := rfl
@[simp] theorem State.setTile_totals : (s.setTile t x).totals = s.totals := rfl
@[simp] theorem State.setTile_report : (s.setTile t x).report = s.report := rfl
@[simp] theorem State.setTile_model : (s.setTile t x).model = s.model := rfl
@[simp] theorem State.setTile_sigRefused : (s.setTile t x).sigRefused = s.sigRefused := rfl
@[simp] theorem State.setTile_keyReady : (s.setTile t x).keyReady = s.keyReady := rfl
@[simp] theorem State.setTile_places : (s.setTile t x).places = s.places := rfl
@[simp] theorem State.setTile_regNow : (s.setTile t x).regNow = s.regNow := rfl
@[simp] theorem State.setTile_blocked : (s.setTile t x).blocked = s.blocked := rfl
@[simp] theorem State.setTile_acct : (s.setTile t x).acct = s.acct := rfl
@[simp] theorem State.setTile_portGot : (s.setTile t x).portGot = s.portGot := rfl
@[simp] theorem State.setTile_portWant : (s.setTile t x).portWant = s.portWant := rfl
end

/-! ## State.setTier -/

section
variable (k : Nat) (x : Tier)

@[simp] theorem State.setTier_pending : (s.setTier k x).pending = s.pending := rfl
@[simp] theorem State.setTier_ts : (s.setTier k x).ts = s.ts := rfl
@[simp] theorem State.setTier_free : (s.setTier k x).free = s.free := rfl
@[simp] theorem State.setTier_outbox : (s.setTier k x).outbox = s.outbox := rfl
@[simp] theorem State.setTier_txns : (s.setTier k x).txns = s.txns := rfl
@[simp] theorem State.setTier_nextId : (s.setTier k x).nextId = s.nextId := rfl
@[simp] theorem State.setTier_power : (s.setTier k x).power = s.power := rfl
@[simp] theorem State.setTier_hk : (s.setTier k x).hk = s.hk := rfl
@[simp] theorem State.setTier_od : (s.setTier k x).od = s.od := rfl
@[simp] theorem State.setTier_ownerKey : (s.setTier k x).ownerKey = s.ownerKey := rfl
@[simp] theorem State.setTier_captured : (s.setTier k x).captured = s.captured := rfl
@[simp] theorem State.setTier_dictQ : (s.setTier k x).dictQ = s.dictQ := rfl
@[simp] theorem State.setTier_stored : (s.setTier k x).stored = s.stored := rfl
@[simp] theorem State.setTier_log : (s.setTier k x).log = s.log := rfl
@[simp] theorem State.setTier_hr : (s.setTier k x).hr = s.hr := rfl
@[simp] theorem State.setTier_tiles : (s.setTier k x).tiles = s.tiles := rfl
@[simp] theorem State.setTier_tileTags : (s.setTier k x).tileTags = s.tileTags := rfl
@[simp] theorem State.setTier_hedges : (s.setTier k x).hedges = s.hedges := rfl
@[simp] theorem State.setTier_launches : (s.setTier k x).launches = s.launches := rfl
@[simp] theorem State.setTier_launchPkts : (s.setTier k x).launchPkts = s.launchPkts := rfl
@[simp] theorem State.setTier_notices : (s.setTier k x).notices = s.notices := rfl
@[simp] theorem State.setTier_folds : (s.setTier k x).folds = s.folds := rfl
@[simp] theorem State.setTier_units : (s.setTier k x).units = s.units := rfl
@[simp] theorem State.setTier_unitNotices : (s.setTier k x).unitNotices = s.unitNotices := rfl
@[simp] theorem State.setTier_laurel : (s.setTier k x).laurel = s.laurel := rfl
@[simp] theorem State.setTier_drain : (s.setTier k x).drain = s.drain := rfl
@[simp] theorem State.setTier_ports : (s.setTier k x).ports = s.ports := rfl
@[simp] theorem State.setTier_queues : (s.setTier k x).queues = s.queues := rfl
@[simp] theorem State.setTier_hostReads : (s.setTier k x).hostReads = s.hostReads := rfl
@[simp] theorem State.setTier_ops : (s.setTier k x).ops = s.ops := rfl
@[simp] theorem State.setTier_stew : (s.setTier k x).stew = s.stew := rfl
@[simp] theorem State.setTier_resetting : (s.setTier k x).resetting = s.resetting := rfl
@[simp] theorem State.setTier_buckets : (s.setTier k x).buckets = s.buckets := rfl
@[simp] theorem State.setTier_partCnt : (s.setTier k x).partCnt = s.partCnt := rfl
@[simp] theorem State.setTier_modCnt : (s.setTier k x).modCnt = s.modCnt := rfl
@[simp] theorem State.setTier_arbs : (s.setTier k x).arbs = s.arbs := rfl
@[simp] theorem State.setTier_briar : (s.setTier k x).briar = s.briar := rfl
@[simp] theorem State.setTier_march : (s.setTier k x).march = s.march := rfl
@[simp] theorem State.setTier_totals : (s.setTier k x).totals = s.totals := rfl
@[simp] theorem State.setTier_report : (s.setTier k x).report = s.report := rfl
@[simp] theorem State.setTier_model : (s.setTier k x).model = s.model := rfl
@[simp] theorem State.setTier_sigRefused : (s.setTier k x).sigRefused = s.sigRefused := rfl
@[simp] theorem State.setTier_keyReady : (s.setTier k x).keyReady = s.keyReady := rfl
@[simp] theorem State.setTier_places : (s.setTier k x).places = s.places := rfl
@[simp] theorem State.setTier_regNow : (s.setTier k x).regNow = s.regNow := rfl
@[simp] theorem State.setTier_blocked : (s.setTier k x).blocked = s.blocked := rfl
@[simp] theorem State.setTier_acct : (s.setTier k x).acct = s.acct := rfl
@[simp] theorem State.setTier_portGot : (s.setTier k x).portGot = s.portGot := rfl
@[simp] theorem State.setTier_portWant : (s.setTier k x).portWant = s.portWant := rfl
end

/-! ## State.setUnit -/

section
variable (u : Nat) (x : PUnit)

@[simp] theorem State.setUnit_pending : (s.setUnit u x).pending = s.pending := rfl
@[simp] theorem State.setUnit_ts : (s.setUnit u x).ts = s.ts := rfl
@[simp] theorem State.setUnit_free : (s.setUnit u x).free = s.free := rfl
@[simp] theorem State.setUnit_outbox : (s.setUnit u x).outbox = s.outbox := rfl
@[simp] theorem State.setUnit_txns : (s.setUnit u x).txns = s.txns := rfl
@[simp] theorem State.setUnit_nextId : (s.setUnit u x).nextId = s.nextId := rfl
@[simp] theorem State.setUnit_power : (s.setUnit u x).power = s.power := rfl
@[simp] theorem State.setUnit_hk : (s.setUnit u x).hk = s.hk := rfl
@[simp] theorem State.setUnit_od : (s.setUnit u x).od = s.od := rfl
@[simp] theorem State.setUnit_ownerKey : (s.setUnit u x).ownerKey = s.ownerKey := rfl
@[simp] theorem State.setUnit_captured : (s.setUnit u x).captured = s.captured := rfl
@[simp] theorem State.setUnit_dictQ : (s.setUnit u x).dictQ = s.dictQ := rfl
@[simp] theorem State.setUnit_stored : (s.setUnit u x).stored = s.stored := rfl
@[simp] theorem State.setUnit_log : (s.setUnit u x).log = s.log := rfl
@[simp] theorem State.setUnit_hr : (s.setUnit u x).hr = s.hr := rfl
@[simp] theorem State.setUnit_tiles : (s.setUnit u x).tiles = s.tiles := rfl
@[simp] theorem State.setUnit_tileTags : (s.setUnit u x).tileTags = s.tileTags := rfl
@[simp] theorem State.setUnit_hedges : (s.setUnit u x).hedges = s.hedges := rfl
@[simp] theorem State.setUnit_launches : (s.setUnit u x).launches = s.launches := rfl
@[simp] theorem State.setUnit_launchPkts : (s.setUnit u x).launchPkts = s.launchPkts := rfl
@[simp] theorem State.setUnit_notices : (s.setUnit u x).notices = s.notices := rfl
@[simp] theorem State.setUnit_folds : (s.setUnit u x).folds = s.folds := rfl
@[simp] theorem State.setUnit_tiers : (s.setUnit u x).tiers = s.tiers := rfl
@[simp] theorem State.setUnit_unitNotices : (s.setUnit u x).unitNotices = s.unitNotices := rfl
@[simp] theorem State.setUnit_laurel : (s.setUnit u x).laurel = s.laurel := rfl
@[simp] theorem State.setUnit_drain : (s.setUnit u x).drain = s.drain := rfl
@[simp] theorem State.setUnit_ports : (s.setUnit u x).ports = s.ports := rfl
@[simp] theorem State.setUnit_queues : (s.setUnit u x).queues = s.queues := rfl
@[simp] theorem State.setUnit_hostReads : (s.setUnit u x).hostReads = s.hostReads := rfl
@[simp] theorem State.setUnit_ops : (s.setUnit u x).ops = s.ops := rfl
@[simp] theorem State.setUnit_stew : (s.setUnit u x).stew = s.stew := rfl
@[simp] theorem State.setUnit_resetting : (s.setUnit u x).resetting = s.resetting := rfl
@[simp] theorem State.setUnit_buckets : (s.setUnit u x).buckets = s.buckets := rfl
@[simp] theorem State.setUnit_partCnt : (s.setUnit u x).partCnt = s.partCnt := rfl
@[simp] theorem State.setUnit_modCnt : (s.setUnit u x).modCnt = s.modCnt := rfl
@[simp] theorem State.setUnit_arbs : (s.setUnit u x).arbs = s.arbs := rfl
@[simp] theorem State.setUnit_briar : (s.setUnit u x).briar = s.briar := rfl
@[simp] theorem State.setUnit_march : (s.setUnit u x).march = s.march := rfl
@[simp] theorem State.setUnit_totals : (s.setUnit u x).totals = s.totals := rfl
@[simp] theorem State.setUnit_report : (s.setUnit u x).report = s.report := rfl
@[simp] theorem State.setUnit_model : (s.setUnit u x).model = s.model := rfl
@[simp] theorem State.setUnit_sigRefused : (s.setUnit u x).sigRefused = s.sigRefused := rfl
@[simp] theorem State.setUnit_keyReady : (s.setUnit u x).keyReady = s.keyReady := rfl
@[simp] theorem State.setUnit_places : (s.setUnit u x).places = s.places := rfl
@[simp] theorem State.setUnit_regNow : (s.setUnit u x).regNow = s.regNow := rfl
@[simp] theorem State.setUnit_blocked : (s.setUnit u x).blocked = s.blocked := rfl
@[simp] theorem State.setUnit_acct : (s.setUnit u x).acct = s.acct := rfl
@[simp] theorem State.setUnit_portGot : (s.setUnit u x).portGot = s.portGot := rfl
@[simp] theorem State.setUnit_portWant : (s.setUnit u x).portWant = s.portWant := rfl
end

/-! ## State.setHedge -/

section
variable (h : Nat) (x : Hedge)

@[simp] theorem State.setHedge_pending : (s.setHedge h x).pending = s.pending := rfl
@[simp] theorem State.setHedge_ts : (s.setHedge h x).ts = s.ts := rfl
@[simp] theorem State.setHedge_free : (s.setHedge h x).free = s.free := rfl
@[simp] theorem State.setHedge_outbox : (s.setHedge h x).outbox = s.outbox := rfl
@[simp] theorem State.setHedge_txns : (s.setHedge h x).txns = s.txns := rfl
@[simp] theorem State.setHedge_nextId : (s.setHedge h x).nextId = s.nextId := rfl
@[simp] theorem State.setHedge_power : (s.setHedge h x).power = s.power := rfl
@[simp] theorem State.setHedge_hk : (s.setHedge h x).hk = s.hk := rfl
@[simp] theorem State.setHedge_od : (s.setHedge h x).od = s.od := rfl
@[simp] theorem State.setHedge_ownerKey : (s.setHedge h x).ownerKey = s.ownerKey := rfl
@[simp] theorem State.setHedge_captured : (s.setHedge h x).captured = s.captured := rfl
@[simp] theorem State.setHedge_dictQ : (s.setHedge h x).dictQ = s.dictQ := rfl
@[simp] theorem State.setHedge_stored : (s.setHedge h x).stored = s.stored := rfl
@[simp] theorem State.setHedge_log : (s.setHedge h x).log = s.log := rfl
@[simp] theorem State.setHedge_hr : (s.setHedge h x).hr = s.hr := rfl
@[simp] theorem State.setHedge_tiles : (s.setHedge h x).tiles = s.tiles := rfl
@[simp] theorem State.setHedge_tileTags : (s.setHedge h x).tileTags = s.tileTags := rfl
@[simp] theorem State.setHedge_launches : (s.setHedge h x).launches = s.launches := rfl
@[simp] theorem State.setHedge_launchPkts : (s.setHedge h x).launchPkts = s.launchPkts := rfl
@[simp] theorem State.setHedge_notices : (s.setHedge h x).notices = s.notices := rfl
@[simp] theorem State.setHedge_folds : (s.setHedge h x).folds = s.folds := rfl
@[simp] theorem State.setHedge_tiers : (s.setHedge h x).tiers = s.tiers := rfl
@[simp] theorem State.setHedge_units : (s.setHedge h x).units = s.units := rfl
@[simp] theorem State.setHedge_unitNotices : (s.setHedge h x).unitNotices = s.unitNotices := rfl
@[simp] theorem State.setHedge_laurel : (s.setHedge h x).laurel = s.laurel := rfl
@[simp] theorem State.setHedge_drain : (s.setHedge h x).drain = s.drain := rfl
@[simp] theorem State.setHedge_ports : (s.setHedge h x).ports = s.ports := rfl
@[simp] theorem State.setHedge_queues : (s.setHedge h x).queues = s.queues := rfl
@[simp] theorem State.setHedge_hostReads : (s.setHedge h x).hostReads = s.hostReads := rfl
@[simp] theorem State.setHedge_ops : (s.setHedge h x).ops = s.ops := rfl
@[simp] theorem State.setHedge_stew : (s.setHedge h x).stew = s.stew := rfl
@[simp] theorem State.setHedge_resetting : (s.setHedge h x).resetting = s.resetting := rfl
@[simp] theorem State.setHedge_buckets : (s.setHedge h x).buckets = s.buckets := rfl
@[simp] theorem State.setHedge_partCnt : (s.setHedge h x).partCnt = s.partCnt := rfl
@[simp] theorem State.setHedge_modCnt : (s.setHedge h x).modCnt = s.modCnt := rfl
@[simp] theorem State.setHedge_arbs : (s.setHedge h x).arbs = s.arbs := rfl
@[simp] theorem State.setHedge_briar : (s.setHedge h x).briar = s.briar := rfl
@[simp] theorem State.setHedge_march : (s.setHedge h x).march = s.march := rfl
@[simp] theorem State.setHedge_totals : (s.setHedge h x).totals = s.totals := rfl
@[simp] theorem State.setHedge_report : (s.setHedge h x).report = s.report := rfl
@[simp] theorem State.setHedge_model : (s.setHedge h x).model = s.model := rfl
@[simp] theorem State.setHedge_sigRefused : (s.setHedge h x).sigRefused = s.sigRefused := rfl
@[simp] theorem State.setHedge_keyReady : (s.setHedge h x).keyReady = s.keyReady := rfl
@[simp] theorem State.setHedge_places : (s.setHedge h x).places = s.places := rfl
@[simp] theorem State.setHedge_regNow : (s.setHedge h x).regNow = s.regNow := rfl
@[simp] theorem State.setHedge_blocked : (s.setHedge h x).blocked = s.blocked := rfl
@[simp] theorem State.setHedge_acct : (s.setHedge h x).acct = s.acct := rfl
@[simp] theorem State.setHedge_portGot : (s.setHedge h x).portGot = s.portGot := rfl
@[simp] theorem State.setHedge_portWant : (s.setHedge h x).portWant = s.portWant := rfl
end

/-! ## State.setPort -/

section
variable (p : PortId) (x : Port)

@[simp] theorem State.setPort_pending : (s.setPort p x).pending = s.pending := rfl
@[simp] theorem State.setPort_ts : (s.setPort p x).ts = s.ts := rfl
@[simp] theorem State.setPort_free : (s.setPort p x).free = s.free := rfl
@[simp] theorem State.setPort_outbox : (s.setPort p x).outbox = s.outbox := rfl
@[simp] theorem State.setPort_txns : (s.setPort p x).txns = s.txns := rfl
@[simp] theorem State.setPort_nextId : (s.setPort p x).nextId = s.nextId := rfl
@[simp] theorem State.setPort_power : (s.setPort p x).power = s.power := rfl
@[simp] theorem State.setPort_hk : (s.setPort p x).hk = s.hk := rfl
@[simp] theorem State.setPort_od : (s.setPort p x).od = s.od := rfl
@[simp] theorem State.setPort_ownerKey : (s.setPort p x).ownerKey = s.ownerKey := rfl
@[simp] theorem State.setPort_captured : (s.setPort p x).captured = s.captured := rfl
@[simp] theorem State.setPort_dictQ : (s.setPort p x).dictQ = s.dictQ := rfl
@[simp] theorem State.setPort_stored : (s.setPort p x).stored = s.stored := rfl
@[simp] theorem State.setPort_log : (s.setPort p x).log = s.log := rfl
@[simp] theorem State.setPort_hr : (s.setPort p x).hr = s.hr := rfl
@[simp] theorem State.setPort_tiles : (s.setPort p x).tiles = s.tiles := rfl
@[simp] theorem State.setPort_tileTags : (s.setPort p x).tileTags = s.tileTags := rfl
@[simp] theorem State.setPort_hedges : (s.setPort p x).hedges = s.hedges := rfl
@[simp] theorem State.setPort_launches : (s.setPort p x).launches = s.launches := rfl
@[simp] theorem State.setPort_launchPkts : (s.setPort p x).launchPkts = s.launchPkts := rfl
@[simp] theorem State.setPort_notices : (s.setPort p x).notices = s.notices := rfl
@[simp] theorem State.setPort_folds : (s.setPort p x).folds = s.folds := rfl
@[simp] theorem State.setPort_tiers : (s.setPort p x).tiers = s.tiers := rfl
@[simp] theorem State.setPort_units : (s.setPort p x).units = s.units := rfl
@[simp] theorem State.setPort_unitNotices : (s.setPort p x).unitNotices = s.unitNotices := rfl
@[simp] theorem State.setPort_laurel : (s.setPort p x).laurel = s.laurel := rfl
@[simp] theorem State.setPort_drain : (s.setPort p x).drain = s.drain := rfl
@[simp] theorem State.setPort_queues : (s.setPort p x).queues = s.queues := rfl
@[simp] theorem State.setPort_hostReads : (s.setPort p x).hostReads = s.hostReads := rfl
@[simp] theorem State.setPort_ops : (s.setPort p x).ops = s.ops := rfl
@[simp] theorem State.setPort_stew : (s.setPort p x).stew = s.stew := rfl
@[simp] theorem State.setPort_resetting : (s.setPort p x).resetting = s.resetting := rfl
@[simp] theorem State.setPort_buckets : (s.setPort p x).buckets = s.buckets := rfl
@[simp] theorem State.setPort_partCnt : (s.setPort p x).partCnt = s.partCnt := rfl
@[simp] theorem State.setPort_modCnt : (s.setPort p x).modCnt = s.modCnt := rfl
@[simp] theorem State.setPort_arbs : (s.setPort p x).arbs = s.arbs := rfl
@[simp] theorem State.setPort_briar : (s.setPort p x).briar = s.briar := rfl
@[simp] theorem State.setPort_march : (s.setPort p x).march = s.march := rfl
@[simp] theorem State.setPort_totals : (s.setPort p x).totals = s.totals := rfl
@[simp] theorem State.setPort_report : (s.setPort p x).report = s.report := rfl
@[simp] theorem State.setPort_model : (s.setPort p x).model = s.model := rfl
@[simp] theorem State.setPort_sigRefused : (s.setPort p x).sigRefused = s.sigRefused := rfl
@[simp] theorem State.setPort_keyReady : (s.setPort p x).keyReady = s.keyReady := rfl
@[simp] theorem State.setPort_places : (s.setPort p x).places = s.places := rfl
@[simp] theorem State.setPort_regNow : (s.setPort p x).regNow = s.regNow := rfl
@[simp] theorem State.setPort_blocked : (s.setPort p x).blocked = s.blocked := rfl
@[simp] theorem State.setPort_acct : (s.setPort p x).acct = s.acct := rfl
@[simp] theorem State.setPort_portGot : (s.setPort p x).portGot = s.portGot := rfl
@[simp] theorem State.setPort_portWant : (s.setPort p x).portWant = s.portWant := rfl
end

/-! ## State.setQueue -/

section
variable (q : Nat) (x : QPair)

@[simp] theorem State.setQueue_pending : (s.setQueue q x).pending = s.pending := rfl
@[simp] theorem State.setQueue_ts : (s.setQueue q x).ts = s.ts := rfl
@[simp] theorem State.setQueue_free : (s.setQueue q x).free = s.free := rfl
@[simp] theorem State.setQueue_outbox : (s.setQueue q x).outbox = s.outbox := rfl
@[simp] theorem State.setQueue_txns : (s.setQueue q x).txns = s.txns := rfl
@[simp] theorem State.setQueue_nextId : (s.setQueue q x).nextId = s.nextId := rfl
@[simp] theorem State.setQueue_power : (s.setQueue q x).power = s.power := rfl
@[simp] theorem State.setQueue_hk : (s.setQueue q x).hk = s.hk := rfl
@[simp] theorem State.setQueue_od : (s.setQueue q x).od = s.od := rfl
@[simp] theorem State.setQueue_ownerKey : (s.setQueue q x).ownerKey = s.ownerKey := rfl
@[simp] theorem State.setQueue_captured : (s.setQueue q x).captured = s.captured := rfl
@[simp] theorem State.setQueue_dictQ : (s.setQueue q x).dictQ = s.dictQ := rfl
@[simp] theorem State.setQueue_stored : (s.setQueue q x).stored = s.stored := rfl
@[simp] theorem State.setQueue_log : (s.setQueue q x).log = s.log := rfl
@[simp] theorem State.setQueue_hr : (s.setQueue q x).hr = s.hr := rfl
@[simp] theorem State.setQueue_tiles : (s.setQueue q x).tiles = s.tiles := rfl
@[simp] theorem State.setQueue_tileTags : (s.setQueue q x).tileTags = s.tileTags := rfl
@[simp] theorem State.setQueue_hedges : (s.setQueue q x).hedges = s.hedges := rfl
@[simp] theorem State.setQueue_launches : (s.setQueue q x).launches = s.launches := rfl
@[simp] theorem State.setQueue_launchPkts : (s.setQueue q x).launchPkts = s.launchPkts := rfl
@[simp] theorem State.setQueue_notices : (s.setQueue q x).notices = s.notices := rfl
@[simp] theorem State.setQueue_folds : (s.setQueue q x).folds = s.folds := rfl
@[simp] theorem State.setQueue_tiers : (s.setQueue q x).tiers = s.tiers := rfl
@[simp] theorem State.setQueue_units : (s.setQueue q x).units = s.units := rfl
@[simp] theorem State.setQueue_unitNotices : (s.setQueue q x).unitNotices = s.unitNotices := rfl
@[simp] theorem State.setQueue_laurel : (s.setQueue q x).laurel = s.laurel := rfl
@[simp] theorem State.setQueue_drain : (s.setQueue q x).drain = s.drain := rfl
@[simp] theorem State.setQueue_ports : (s.setQueue q x).ports = s.ports := rfl
@[simp] theorem State.setQueue_hostReads : (s.setQueue q x).hostReads = s.hostReads := rfl
@[simp] theorem State.setQueue_ops : (s.setQueue q x).ops = s.ops := rfl
@[simp] theorem State.setQueue_stew : (s.setQueue q x).stew = s.stew := rfl
@[simp] theorem State.setQueue_resetting : (s.setQueue q x).resetting = s.resetting := rfl
@[simp] theorem State.setQueue_buckets : (s.setQueue q x).buckets = s.buckets := rfl
@[simp] theorem State.setQueue_partCnt : (s.setQueue q x).partCnt = s.partCnt := rfl
@[simp] theorem State.setQueue_modCnt : (s.setQueue q x).modCnt = s.modCnt := rfl
@[simp] theorem State.setQueue_arbs : (s.setQueue q x).arbs = s.arbs := rfl
@[simp] theorem State.setQueue_briar : (s.setQueue q x).briar = s.briar := rfl
@[simp] theorem State.setQueue_march : (s.setQueue q x).march = s.march := rfl
@[simp] theorem State.setQueue_totals : (s.setQueue q x).totals = s.totals := rfl
@[simp] theorem State.setQueue_report : (s.setQueue q x).report = s.report := rfl
@[simp] theorem State.setQueue_model : (s.setQueue q x).model = s.model := rfl
@[simp] theorem State.setQueue_sigRefused : (s.setQueue q x).sigRefused = s.sigRefused := rfl
@[simp] theorem State.setQueue_keyReady : (s.setQueue q x).keyReady = s.keyReady := rfl
@[simp] theorem State.setQueue_places : (s.setQueue q x).places = s.places := rfl
@[simp] theorem State.setQueue_regNow : (s.setQueue q x).regNow = s.regNow := rfl
@[simp] theorem State.setQueue_blocked : (s.setQueue q x).blocked = s.blocked := rfl
@[simp] theorem State.setQueue_acct : (s.setQueue q x).acct = s.acct := rfl
@[simp] theorem State.setQueue_portGot : (s.setQueue q x).portGot = s.portGot := rfl
@[simp] theorem State.setQueue_portWant : (s.setQueue q x).portWant = s.portWant := rfl
end

/-! ## State.setBport -/

section
variable (b : Nat) (x : BriarPort)

@[simp] theorem State.setBport_pending : (s.setBport b x).pending = s.pending := rfl
@[simp] theorem State.setBport_ts : (s.setBport b x).ts = s.ts := rfl
@[simp] theorem State.setBport_free : (s.setBport b x).free = s.free := rfl
@[simp] theorem State.setBport_outbox : (s.setBport b x).outbox = s.outbox := rfl
@[simp] theorem State.setBport_txns : (s.setBport b x).txns = s.txns := rfl
@[simp] theorem State.setBport_nextId : (s.setBport b x).nextId = s.nextId := rfl
@[simp] theorem State.setBport_power : (s.setBport b x).power = s.power := rfl
@[simp] theorem State.setBport_hk : (s.setBport b x).hk = s.hk := rfl
@[simp] theorem State.setBport_od : (s.setBport b x).od = s.od := rfl
@[simp] theorem State.setBport_ownerKey : (s.setBport b x).ownerKey = s.ownerKey := rfl
@[simp] theorem State.setBport_captured : (s.setBport b x).captured = s.captured := rfl
@[simp] theorem State.setBport_dictQ : (s.setBport b x).dictQ = s.dictQ := rfl
@[simp] theorem State.setBport_stored : (s.setBport b x).stored = s.stored := rfl
@[simp] theorem State.setBport_log : (s.setBport b x).log = s.log := rfl
@[simp] theorem State.setBport_hr : (s.setBport b x).hr = s.hr := rfl
@[simp] theorem State.setBport_tiles : (s.setBport b x).tiles = s.tiles := rfl
@[simp] theorem State.setBport_tileTags : (s.setBport b x).tileTags = s.tileTags := rfl
@[simp] theorem State.setBport_hedges : (s.setBport b x).hedges = s.hedges := rfl
@[simp] theorem State.setBport_launches : (s.setBport b x).launches = s.launches := rfl
@[simp] theorem State.setBport_launchPkts : (s.setBport b x).launchPkts = s.launchPkts := rfl
@[simp] theorem State.setBport_notices : (s.setBport b x).notices = s.notices := rfl
@[simp] theorem State.setBport_folds : (s.setBport b x).folds = s.folds := rfl
@[simp] theorem State.setBport_tiers : (s.setBport b x).tiers = s.tiers := rfl
@[simp] theorem State.setBport_units : (s.setBport b x).units = s.units := rfl
@[simp] theorem State.setBport_unitNotices : (s.setBport b x).unitNotices = s.unitNotices := rfl
@[simp] theorem State.setBport_laurel : (s.setBport b x).laurel = s.laurel := rfl
@[simp] theorem State.setBport_drain : (s.setBport b x).drain = s.drain := rfl
@[simp] theorem State.setBport_ports : (s.setBport b x).ports = s.ports := rfl
@[simp] theorem State.setBport_queues : (s.setBport b x).queues = s.queues := rfl
@[simp] theorem State.setBport_hostReads : (s.setBport b x).hostReads = s.hostReads := rfl
@[simp] theorem State.setBport_ops : (s.setBport b x).ops = s.ops := rfl
@[simp] theorem State.setBport_stew : (s.setBport b x).stew = s.stew := rfl
@[simp] theorem State.setBport_resetting : (s.setBport b x).resetting = s.resetting := rfl
@[simp] theorem State.setBport_buckets : (s.setBport b x).buckets = s.buckets := rfl
@[simp] theorem State.setBport_partCnt : (s.setBport b x).partCnt = s.partCnt := rfl
@[simp] theorem State.setBport_modCnt : (s.setBport b x).modCnt = s.modCnt := rfl
@[simp] theorem State.setBport_arbs : (s.setBport b x).arbs = s.arbs := rfl
@[simp] theorem State.setBport_march : (s.setBport b x).march = s.march := rfl
@[simp] theorem State.setBport_totals : (s.setBport b x).totals = s.totals := rfl
@[simp] theorem State.setBport_report : (s.setBport b x).report = s.report := rfl
@[simp] theorem State.setBport_model : (s.setBport b x).model = s.model := rfl
@[simp] theorem State.setBport_sigRefused : (s.setBport b x).sigRefused = s.sigRefused := rfl
@[simp] theorem State.setBport_keyReady : (s.setBport b x).keyReady = s.keyReady := rfl
@[simp] theorem State.setBport_places : (s.setBport b x).places = s.places := rfl
@[simp] theorem State.setBport_regNow : (s.setBport b x).regNow = s.regNow := rfl
@[simp] theorem State.setBport_blocked : (s.setBport b x).blocked = s.blocked := rfl
@[simp] theorem State.setBport_acct : (s.setBport b x).acct = s.acct := rfl
@[simp] theorem State.setBport_portGot : (s.setBport b x).portGot = s.portGot := rfl
@[simp] theorem State.setBport_portWant : (s.setBport b x).portWant = s.portWant := rfl
end

/-! ## State.modLaurel -/

section
variable (f : Laurel → Laurel)

@[simp] theorem State.modLaurel_pending : (s.modLaurel f).pending = s.pending := rfl
@[simp] theorem State.modLaurel_ts : (s.modLaurel f).ts = s.ts := rfl
@[simp] theorem State.modLaurel_free : (s.modLaurel f).free = s.free := rfl
@[simp] theorem State.modLaurel_outbox : (s.modLaurel f).outbox = s.outbox := rfl
@[simp] theorem State.modLaurel_txns : (s.modLaurel f).txns = s.txns := rfl
@[simp] theorem State.modLaurel_nextId : (s.modLaurel f).nextId = s.nextId := rfl
@[simp] theorem State.modLaurel_power : (s.modLaurel f).power = s.power := rfl
@[simp] theorem State.modLaurel_hk : (s.modLaurel f).hk = s.hk := rfl
@[simp] theorem State.modLaurel_od : (s.modLaurel f).od = s.od := rfl
@[simp] theorem State.modLaurel_ownerKey : (s.modLaurel f).ownerKey = s.ownerKey := rfl
@[simp] theorem State.modLaurel_captured : (s.modLaurel f).captured = s.captured := rfl
@[simp] theorem State.modLaurel_dictQ : (s.modLaurel f).dictQ = s.dictQ := rfl
@[simp] theorem State.modLaurel_stored : (s.modLaurel f).stored = s.stored := rfl
@[simp] theorem State.modLaurel_log : (s.modLaurel f).log = s.log := rfl
@[simp] theorem State.modLaurel_hr : (s.modLaurel f).hr = s.hr := rfl
@[simp] theorem State.modLaurel_tiles : (s.modLaurel f).tiles = s.tiles := rfl
@[simp] theorem State.modLaurel_tileTags : (s.modLaurel f).tileTags = s.tileTags := rfl
@[simp] theorem State.modLaurel_hedges : (s.modLaurel f).hedges = s.hedges := rfl
@[simp] theorem State.modLaurel_launches : (s.modLaurel f).launches = s.launches := rfl
@[simp] theorem State.modLaurel_launchPkts : (s.modLaurel f).launchPkts = s.launchPkts := rfl
@[simp] theorem State.modLaurel_notices : (s.modLaurel f).notices = s.notices := rfl
@[simp] theorem State.modLaurel_folds : (s.modLaurel f).folds = s.folds := rfl
@[simp] theorem State.modLaurel_tiers : (s.modLaurel f).tiers = s.tiers := rfl
@[simp] theorem State.modLaurel_units : (s.modLaurel f).units = s.units := rfl
@[simp] theorem State.modLaurel_unitNotices : (s.modLaurel f).unitNotices = s.unitNotices := rfl
@[simp] theorem State.modLaurel_drain : (s.modLaurel f).drain = s.drain := rfl
@[simp] theorem State.modLaurel_ports : (s.modLaurel f).ports = s.ports := rfl
@[simp] theorem State.modLaurel_queues : (s.modLaurel f).queues = s.queues := rfl
@[simp] theorem State.modLaurel_hostReads : (s.modLaurel f).hostReads = s.hostReads := rfl
@[simp] theorem State.modLaurel_ops : (s.modLaurel f).ops = s.ops := rfl
@[simp] theorem State.modLaurel_stew : (s.modLaurel f).stew = s.stew := rfl
@[simp] theorem State.modLaurel_resetting : (s.modLaurel f).resetting = s.resetting := rfl
@[simp] theorem State.modLaurel_buckets : (s.modLaurel f).buckets = s.buckets := rfl
@[simp] theorem State.modLaurel_partCnt : (s.modLaurel f).partCnt = s.partCnt := rfl
@[simp] theorem State.modLaurel_modCnt : (s.modLaurel f).modCnt = s.modCnt := rfl
@[simp] theorem State.modLaurel_arbs : (s.modLaurel f).arbs = s.arbs := rfl
@[simp] theorem State.modLaurel_briar : (s.modLaurel f).briar = s.briar := rfl
@[simp] theorem State.modLaurel_march : (s.modLaurel f).march = s.march := rfl
@[simp] theorem State.modLaurel_totals : (s.modLaurel f).totals = s.totals := rfl
@[simp] theorem State.modLaurel_report : (s.modLaurel f).report = s.report := rfl
@[simp] theorem State.modLaurel_model : (s.modLaurel f).model = s.model := rfl
@[simp] theorem State.modLaurel_sigRefused : (s.modLaurel f).sigRefused = s.sigRefused := rfl
@[simp] theorem State.modLaurel_keyReady : (s.modLaurel f).keyReady = s.keyReady := rfl
@[simp] theorem State.modLaurel_places : (s.modLaurel f).places = s.places := rfl
@[simp] theorem State.modLaurel_regNow : (s.modLaurel f).regNow = s.regNow := rfl
@[simp] theorem State.modLaurel_blocked : (s.modLaurel f).blocked = s.blocked := rfl
@[simp] theorem State.modLaurel_acct : (s.modLaurel f).acct = s.acct := rfl
@[simp] theorem State.modLaurel_portGot : (s.modLaurel f).portGot = s.portGot := rfl
@[simp] theorem State.modLaurel_portWant : (s.modLaurel f).portWant = s.portWant := rfl
end

/-! ## State.emit -/

section
variable (o : Out)

@[simp] theorem State.emit_pending : (s.emit o).pending = s.pending := rfl
@[simp] theorem State.emit_ts : (s.emit o).ts = s.ts := rfl
@[simp] theorem State.emit_free : (s.emit o).free = s.free := rfl
@[simp] theorem State.emit_txns : (s.emit o).txns = s.txns := rfl
@[simp] theorem State.emit_nextId : (s.emit o).nextId = s.nextId := rfl
@[simp] theorem State.emit_power : (s.emit o).power = s.power := rfl
@[simp] theorem State.emit_hk : (s.emit o).hk = s.hk := rfl
@[simp] theorem State.emit_od : (s.emit o).od = s.od := rfl
@[simp] theorem State.emit_ownerKey : (s.emit o).ownerKey = s.ownerKey := rfl
@[simp] theorem State.emit_captured : (s.emit o).captured = s.captured := rfl
@[simp] theorem State.emit_dictQ : (s.emit o).dictQ = s.dictQ := rfl
@[simp] theorem State.emit_stored : (s.emit o).stored = s.stored := rfl
@[simp] theorem State.emit_log : (s.emit o).log = s.log := rfl
@[simp] theorem State.emit_hr : (s.emit o).hr = s.hr := rfl
@[simp] theorem State.emit_tiles : (s.emit o).tiles = s.tiles := rfl
@[simp] theorem State.emit_tileTags : (s.emit o).tileTags = s.tileTags := rfl
@[simp] theorem State.emit_hedges : (s.emit o).hedges = s.hedges := rfl
@[simp] theorem State.emit_launches : (s.emit o).launches = s.launches := rfl
@[simp] theorem State.emit_launchPkts : (s.emit o).launchPkts = s.launchPkts := rfl
@[simp] theorem State.emit_notices : (s.emit o).notices = s.notices := rfl
@[simp] theorem State.emit_folds : (s.emit o).folds = s.folds := rfl
@[simp] theorem State.emit_tiers : (s.emit o).tiers = s.tiers := rfl
@[simp] theorem State.emit_units : (s.emit o).units = s.units := rfl
@[simp] theorem State.emit_unitNotices : (s.emit o).unitNotices = s.unitNotices := rfl
@[simp] theorem State.emit_laurel : (s.emit o).laurel = s.laurel := rfl
@[simp] theorem State.emit_drain : (s.emit o).drain = s.drain := rfl
@[simp] theorem State.emit_ports : (s.emit o).ports = s.ports := rfl
@[simp] theorem State.emit_queues : (s.emit o).queues = s.queues := rfl
@[simp] theorem State.emit_hostReads : (s.emit o).hostReads = s.hostReads := rfl
@[simp] theorem State.emit_ops : (s.emit o).ops = s.ops := rfl
@[simp] theorem State.emit_stew : (s.emit o).stew = s.stew := rfl
@[simp] theorem State.emit_resetting : (s.emit o).resetting = s.resetting := rfl
@[simp] theorem State.emit_buckets : (s.emit o).buckets = s.buckets := rfl
@[simp] theorem State.emit_partCnt : (s.emit o).partCnt = s.partCnt := rfl
@[simp] theorem State.emit_modCnt : (s.emit o).modCnt = s.modCnt := rfl
@[simp] theorem State.emit_arbs : (s.emit o).arbs = s.arbs := rfl
@[simp] theorem State.emit_briar : (s.emit o).briar = s.briar := rfl
@[simp] theorem State.emit_march : (s.emit o).march = s.march := rfl
@[simp] theorem State.emit_totals : (s.emit o).totals = s.totals := rfl
@[simp] theorem State.emit_report : (s.emit o).report = s.report := rfl
@[simp] theorem State.emit_model : (s.emit o).model = s.model := rfl
@[simp] theorem State.emit_sigRefused : (s.emit o).sigRefused = s.sigRefused := rfl
@[simp] theorem State.emit_keyReady : (s.emit o).keyReady = s.keyReady := rfl
@[simp] theorem State.emit_places : (s.emit o).places = s.places := rfl
@[simp] theorem State.emit_regNow : (s.emit o).regNow = s.regNow := rfl
@[simp] theorem State.emit_blocked : (s.emit o).blocked = s.blocked := rfl
@[simp] theorem State.emit_acct : (s.emit o).acct = s.acct := rfl
@[simp] theorem State.emit_portGot : (s.emit o).portGot = s.portGot := rfl
@[simp] theorem State.emit_portWant : (s.emit o).portWant = s.portWant := rfl
end

/-! ## State.modCount -/

section
variable (i j n : Nat)

@[simp] theorem State.modCount_pending : (s.modCount i j n).pending = s.pending := rfl
@[simp] theorem State.modCount_ts : (s.modCount i j n).ts = s.ts := rfl
@[simp] theorem State.modCount_free : (s.modCount i j n).free = s.free := rfl
@[simp] theorem State.modCount_outbox : (s.modCount i j n).outbox = s.outbox := rfl
@[simp] theorem State.modCount_txns : (s.modCount i j n).txns = s.txns := rfl
@[simp] theorem State.modCount_nextId : (s.modCount i j n).nextId = s.nextId := rfl
@[simp] theorem State.modCount_power : (s.modCount i j n).power = s.power := rfl
@[simp] theorem State.modCount_hk : (s.modCount i j n).hk = s.hk := rfl
@[simp] theorem State.modCount_od : (s.modCount i j n).od = s.od := rfl
@[simp] theorem State.modCount_ownerKey : (s.modCount i j n).ownerKey = s.ownerKey := rfl
@[simp] theorem State.modCount_captured : (s.modCount i j n).captured = s.captured := rfl
@[simp] theorem State.modCount_dictQ : (s.modCount i j n).dictQ = s.dictQ := rfl
@[simp] theorem State.modCount_stored : (s.modCount i j n).stored = s.stored := rfl
@[simp] theorem State.modCount_log : (s.modCount i j n).log = s.log := rfl
@[simp] theorem State.modCount_hr : (s.modCount i j n).hr = s.hr := rfl
@[simp] theorem State.modCount_tiles : (s.modCount i j n).tiles = s.tiles := rfl
@[simp] theorem State.modCount_tileTags : (s.modCount i j n).tileTags = s.tileTags := rfl
@[simp] theorem State.modCount_hedges : (s.modCount i j n).hedges = s.hedges := rfl
@[simp] theorem State.modCount_launches : (s.modCount i j n).launches = s.launches := rfl
@[simp] theorem State.modCount_launchPkts : (s.modCount i j n).launchPkts = s.launchPkts := rfl
@[simp] theorem State.modCount_notices : (s.modCount i j n).notices = s.notices := rfl
@[simp] theorem State.modCount_folds : (s.modCount i j n).folds = s.folds := rfl
@[simp] theorem State.modCount_tiers : (s.modCount i j n).tiers = s.tiers := rfl
@[simp] theorem State.modCount_units : (s.modCount i j n).units = s.units := rfl
@[simp] theorem State.modCount_unitNotices : (s.modCount i j n).unitNotices = s.unitNotices := rfl
@[simp] theorem State.modCount_laurel : (s.modCount i j n).laurel = s.laurel := rfl
@[simp] theorem State.modCount_drain : (s.modCount i j n).drain = s.drain := rfl
@[simp] theorem State.modCount_ports : (s.modCount i j n).ports = s.ports := rfl
@[simp] theorem State.modCount_queues : (s.modCount i j n).queues = s.queues := rfl
@[simp] theorem State.modCount_hostReads : (s.modCount i j n).hostReads = s.hostReads := rfl
@[simp] theorem State.modCount_ops : (s.modCount i j n).ops = s.ops := rfl
@[simp] theorem State.modCount_stew : (s.modCount i j n).stew = s.stew := rfl
@[simp] theorem State.modCount_resetting : (s.modCount i j n).resetting = s.resetting := rfl
@[simp] theorem State.modCount_buckets : (s.modCount i j n).buckets = s.buckets := rfl
@[simp] theorem State.modCount_partCnt : (s.modCount i j n).partCnt = s.partCnt := rfl
@[simp] theorem State.modCount_arbs : (s.modCount i j n).arbs = s.arbs := rfl
@[simp] theorem State.modCount_briar : (s.modCount i j n).briar = s.briar := rfl
@[simp] theorem State.modCount_march : (s.modCount i j n).march = s.march := rfl
@[simp] theorem State.modCount_totals : (s.modCount i j n).totals = s.totals := rfl
@[simp] theorem State.modCount_report : (s.modCount i j n).report = s.report := rfl
@[simp] theorem State.modCount_model : (s.modCount i j n).model = s.model := rfl
@[simp] theorem State.modCount_sigRefused : (s.modCount i j n).sigRefused = s.sigRefused := rfl
@[simp] theorem State.modCount_keyReady : (s.modCount i j n).keyReady = s.keyReady := rfl
@[simp] theorem State.modCount_places : (s.modCount i j n).places = s.places := rfl
@[simp] theorem State.modCount_regNow : (s.modCount i j n).regNow = s.regNow := rfl
@[simp] theorem State.modCount_blocked : (s.modCount i j n).blocked = s.blocked := rfl
@[simp] theorem State.modCount_acct : (s.modCount i j n).acct = s.acct := rfl
@[simp] theorem State.modCount_portGot : (s.modCount i j n).portGot = s.portGot := rfl
@[simp] theorem State.modCount_portWant : (s.modCount i j n).portWant = s.portWant := rfl
end

/-! ## State.modTxn -/

section
variable (id : Nat) (f : Txn → Txn)

@[simp] theorem State.modTxn_pending : (s.modTxn id f).pending = s.pending := rfl
@[simp] theorem State.modTxn_ts : (s.modTxn id f).ts = s.ts := rfl
@[simp] theorem State.modTxn_free : (s.modTxn id f).free = s.free := rfl
@[simp] theorem State.modTxn_outbox : (s.modTxn id f).outbox = s.outbox := rfl
@[simp] theorem State.modTxn_nextId : (s.modTxn id f).nextId = s.nextId := rfl
@[simp] theorem State.modTxn_power : (s.modTxn id f).power = s.power := rfl
@[simp] theorem State.modTxn_hk : (s.modTxn id f).hk = s.hk := rfl
@[simp] theorem State.modTxn_od : (s.modTxn id f).od = s.od := rfl
@[simp] theorem State.modTxn_ownerKey : (s.modTxn id f).ownerKey = s.ownerKey := rfl
@[simp] theorem State.modTxn_captured : (s.modTxn id f).captured = s.captured := rfl
@[simp] theorem State.modTxn_dictQ : (s.modTxn id f).dictQ = s.dictQ := rfl
@[simp] theorem State.modTxn_stored : (s.modTxn id f).stored = s.stored := rfl
@[simp] theorem State.modTxn_log : (s.modTxn id f).log = s.log := rfl
@[simp] theorem State.modTxn_hr : (s.modTxn id f).hr = s.hr := rfl
@[simp] theorem State.modTxn_tiles : (s.modTxn id f).tiles = s.tiles := rfl
@[simp] theorem State.modTxn_tileTags : (s.modTxn id f).tileTags = s.tileTags := rfl
@[simp] theorem State.modTxn_hedges : (s.modTxn id f).hedges = s.hedges := rfl
@[simp] theorem State.modTxn_launches : (s.modTxn id f).launches = s.launches := rfl
@[simp] theorem State.modTxn_launchPkts : (s.modTxn id f).launchPkts = s.launchPkts := rfl
@[simp] theorem State.modTxn_notices : (s.modTxn id f).notices = s.notices := rfl
@[simp] theorem State.modTxn_folds : (s.modTxn id f).folds = s.folds := rfl
@[simp] theorem State.modTxn_tiers : (s.modTxn id f).tiers = s.tiers := rfl
@[simp] theorem State.modTxn_units : (s.modTxn id f).units = s.units := rfl
@[simp] theorem State.modTxn_unitNotices : (s.modTxn id f).unitNotices = s.unitNotices := rfl
@[simp] theorem State.modTxn_laurel : (s.modTxn id f).laurel = s.laurel := rfl
@[simp] theorem State.modTxn_drain : (s.modTxn id f).drain = s.drain := rfl
@[simp] theorem State.modTxn_ports : (s.modTxn id f).ports = s.ports := rfl
@[simp] theorem State.modTxn_queues : (s.modTxn id f).queues = s.queues := rfl
@[simp] theorem State.modTxn_hostReads : (s.modTxn id f).hostReads = s.hostReads := rfl
@[simp] theorem State.modTxn_ops : (s.modTxn id f).ops = s.ops := rfl
@[simp] theorem State.modTxn_stew : (s.modTxn id f).stew = s.stew := rfl
@[simp] theorem State.modTxn_resetting : (s.modTxn id f).resetting = s.resetting := rfl
@[simp] theorem State.modTxn_buckets : (s.modTxn id f).buckets = s.buckets := rfl
@[simp] theorem State.modTxn_partCnt : (s.modTxn id f).partCnt = s.partCnt := rfl
@[simp] theorem State.modTxn_modCnt : (s.modTxn id f).modCnt = s.modCnt := rfl
@[simp] theorem State.modTxn_arbs : (s.modTxn id f).arbs = s.arbs := rfl
@[simp] theorem State.modTxn_briar : (s.modTxn id f).briar = s.briar := rfl
@[simp] theorem State.modTxn_march : (s.modTxn id f).march = s.march := rfl
@[simp] theorem State.modTxn_totals : (s.modTxn id f).totals = s.totals := rfl
@[simp] theorem State.modTxn_report : (s.modTxn id f).report = s.report := rfl
@[simp] theorem State.modTxn_model : (s.modTxn id f).model = s.model := rfl
@[simp] theorem State.modTxn_sigRefused : (s.modTxn id f).sigRefused = s.sigRefused := rfl
@[simp] theorem State.modTxn_keyReady : (s.modTxn id f).keyReady = s.keyReady := rfl
@[simp] theorem State.modTxn_places : (s.modTxn id f).places = s.places := rfl
@[simp] theorem State.modTxn_regNow : (s.modTxn id f).regNow = s.regNow := rfl
@[simp] theorem State.modTxn_blocked : (s.modTxn id f).blocked = s.blocked := rfl
@[simp] theorem State.modTxn_acct : (s.modTxn id f).acct = s.acct := rfl
@[simp] theorem State.modTxn_portGot : (s.modTxn id f).portGot = s.portGot := rfl
@[simp] theorem State.modTxn_portWant : (s.modTxn id f).portWant = s.portWant := rfl
end

/-! ## State.dropTxn -/

section
variable (id : Nat)

@[simp] theorem State.dropTxn_pending : (s.dropTxn id).pending = s.pending := rfl
@[simp] theorem State.dropTxn_ts : (s.dropTxn id).ts = s.ts := rfl
@[simp] theorem State.dropTxn_free : (s.dropTxn id).free = s.free := rfl
@[simp] theorem State.dropTxn_outbox : (s.dropTxn id).outbox = s.outbox := rfl
@[simp] theorem State.dropTxn_nextId : (s.dropTxn id).nextId = s.nextId := rfl
@[simp] theorem State.dropTxn_power : (s.dropTxn id).power = s.power := rfl
@[simp] theorem State.dropTxn_hk : (s.dropTxn id).hk = s.hk := rfl
@[simp] theorem State.dropTxn_od : (s.dropTxn id).od = s.od := rfl
@[simp] theorem State.dropTxn_ownerKey : (s.dropTxn id).ownerKey = s.ownerKey := rfl
@[simp] theorem State.dropTxn_captured : (s.dropTxn id).captured = s.captured := rfl
@[simp] theorem State.dropTxn_dictQ : (s.dropTxn id).dictQ = s.dictQ := rfl
@[simp] theorem State.dropTxn_stored : (s.dropTxn id).stored = s.stored := rfl
@[simp] theorem State.dropTxn_log : (s.dropTxn id).log = s.log := rfl
@[simp] theorem State.dropTxn_hr : (s.dropTxn id).hr = s.hr := rfl
@[simp] theorem State.dropTxn_tiles : (s.dropTxn id).tiles = s.tiles := rfl
@[simp] theorem State.dropTxn_tileTags : (s.dropTxn id).tileTags = s.tileTags := rfl
@[simp] theorem State.dropTxn_hedges : (s.dropTxn id).hedges = s.hedges := rfl
@[simp] theorem State.dropTxn_launches : (s.dropTxn id).launches = s.launches := rfl
@[simp] theorem State.dropTxn_launchPkts : (s.dropTxn id).launchPkts = s.launchPkts := rfl
@[simp] theorem State.dropTxn_notices : (s.dropTxn id).notices = s.notices := rfl
@[simp] theorem State.dropTxn_folds : (s.dropTxn id).folds = s.folds := rfl
@[simp] theorem State.dropTxn_tiers : (s.dropTxn id).tiers = s.tiers := rfl
@[simp] theorem State.dropTxn_units : (s.dropTxn id).units = s.units := rfl
@[simp] theorem State.dropTxn_unitNotices : (s.dropTxn id).unitNotices = s.unitNotices := rfl
@[simp] theorem State.dropTxn_laurel : (s.dropTxn id).laurel = s.laurel := rfl
@[simp] theorem State.dropTxn_drain : (s.dropTxn id).drain = s.drain := rfl
@[simp] theorem State.dropTxn_ports : (s.dropTxn id).ports = s.ports := rfl
@[simp] theorem State.dropTxn_queues : (s.dropTxn id).queues = s.queues := rfl
@[simp] theorem State.dropTxn_hostReads : (s.dropTxn id).hostReads = s.hostReads := rfl
@[simp] theorem State.dropTxn_ops : (s.dropTxn id).ops = s.ops := rfl
@[simp] theorem State.dropTxn_stew : (s.dropTxn id).stew = s.stew := rfl
@[simp] theorem State.dropTxn_resetting : (s.dropTxn id).resetting = s.resetting := rfl
@[simp] theorem State.dropTxn_buckets : (s.dropTxn id).buckets = s.buckets := rfl
@[simp] theorem State.dropTxn_partCnt : (s.dropTxn id).partCnt = s.partCnt := rfl
@[simp] theorem State.dropTxn_modCnt : (s.dropTxn id).modCnt = s.modCnt := rfl
@[simp] theorem State.dropTxn_arbs : (s.dropTxn id).arbs = s.arbs := rfl
@[simp] theorem State.dropTxn_briar : (s.dropTxn id).briar = s.briar := rfl
@[simp] theorem State.dropTxn_march : (s.dropTxn id).march = s.march := rfl
@[simp] theorem State.dropTxn_totals : (s.dropTxn id).totals = s.totals := rfl
@[simp] theorem State.dropTxn_report : (s.dropTxn id).report = s.report := rfl
@[simp] theorem State.dropTxn_model : (s.dropTxn id).model = s.model := rfl
@[simp] theorem State.dropTxn_sigRefused : (s.dropTxn id).sigRefused = s.sigRefused := rfl
@[simp] theorem State.dropTxn_keyReady : (s.dropTxn id).keyReady = s.keyReady := rfl
@[simp] theorem State.dropTxn_places : (s.dropTxn id).places = s.places := rfl
@[simp] theorem State.dropTxn_regNow : (s.dropTxn id).regNow = s.regNow := rfl
@[simp] theorem State.dropTxn_blocked : (s.dropTxn id).blocked = s.blocked := rfl
@[simp] theorem State.dropTxn_acct : (s.dropTxn id).acct = s.acct := rfl
@[simp] theorem State.dropTxn_portGot : (s.dropTxn id).portGot = s.portGot := rfl
@[simp] theorem State.dropTxn_portWant : (s.dropTxn id).portWant = s.portWant := rfl
end

/-! ## State.modOp -/

section
variable (id : Nat) (f : HostOp → HostOp)

@[simp] theorem State.modOp_pending : (s.modOp id f).pending = s.pending := rfl
@[simp] theorem State.modOp_ts : (s.modOp id f).ts = s.ts := rfl
@[simp] theorem State.modOp_free : (s.modOp id f).free = s.free := rfl
@[simp] theorem State.modOp_outbox : (s.modOp id f).outbox = s.outbox := rfl
@[simp] theorem State.modOp_txns : (s.modOp id f).txns = s.txns := rfl
@[simp] theorem State.modOp_nextId : (s.modOp id f).nextId = s.nextId := rfl
@[simp] theorem State.modOp_power : (s.modOp id f).power = s.power := rfl
@[simp] theorem State.modOp_hk : (s.modOp id f).hk = s.hk := rfl
@[simp] theorem State.modOp_od : (s.modOp id f).od = s.od := rfl
@[simp] theorem State.modOp_ownerKey : (s.modOp id f).ownerKey = s.ownerKey := rfl
@[simp] theorem State.modOp_captured : (s.modOp id f).captured = s.captured := rfl
@[simp] theorem State.modOp_dictQ : (s.modOp id f).dictQ = s.dictQ := rfl
@[simp] theorem State.modOp_stored : (s.modOp id f).stored = s.stored := rfl
@[simp] theorem State.modOp_log : (s.modOp id f).log = s.log := rfl
@[simp] theorem State.modOp_hr : (s.modOp id f).hr = s.hr := rfl
@[simp] theorem State.modOp_tiles : (s.modOp id f).tiles = s.tiles := rfl
@[simp] theorem State.modOp_tileTags : (s.modOp id f).tileTags = s.tileTags := rfl
@[simp] theorem State.modOp_hedges : (s.modOp id f).hedges = s.hedges := rfl
@[simp] theorem State.modOp_launches : (s.modOp id f).launches = s.launches := rfl
@[simp] theorem State.modOp_launchPkts : (s.modOp id f).launchPkts = s.launchPkts := rfl
@[simp] theorem State.modOp_notices : (s.modOp id f).notices = s.notices := rfl
@[simp] theorem State.modOp_folds : (s.modOp id f).folds = s.folds := rfl
@[simp] theorem State.modOp_tiers : (s.modOp id f).tiers = s.tiers := rfl
@[simp] theorem State.modOp_units : (s.modOp id f).units = s.units := rfl
@[simp] theorem State.modOp_unitNotices : (s.modOp id f).unitNotices = s.unitNotices := rfl
@[simp] theorem State.modOp_laurel : (s.modOp id f).laurel = s.laurel := rfl
@[simp] theorem State.modOp_drain : (s.modOp id f).drain = s.drain := rfl
@[simp] theorem State.modOp_ports : (s.modOp id f).ports = s.ports := rfl
@[simp] theorem State.modOp_queues : (s.modOp id f).queues = s.queues := rfl
@[simp] theorem State.modOp_hostReads : (s.modOp id f).hostReads = s.hostReads := rfl
@[simp] theorem State.modOp_stew : (s.modOp id f).stew = s.stew := rfl
@[simp] theorem State.modOp_resetting : (s.modOp id f).resetting = s.resetting := rfl
@[simp] theorem State.modOp_buckets : (s.modOp id f).buckets = s.buckets := rfl
@[simp] theorem State.modOp_partCnt : (s.modOp id f).partCnt = s.partCnt := rfl
@[simp] theorem State.modOp_modCnt : (s.modOp id f).modCnt = s.modCnt := rfl
@[simp] theorem State.modOp_arbs : (s.modOp id f).arbs = s.arbs := rfl
@[simp] theorem State.modOp_briar : (s.modOp id f).briar = s.briar := rfl
@[simp] theorem State.modOp_march : (s.modOp id f).march = s.march := rfl
@[simp] theorem State.modOp_totals : (s.modOp id f).totals = s.totals := rfl
@[simp] theorem State.modOp_report : (s.modOp id f).report = s.report := rfl
@[simp] theorem State.modOp_model : (s.modOp id f).model = s.model := rfl
@[simp] theorem State.modOp_sigRefused : (s.modOp id f).sigRefused = s.sigRefused := rfl
@[simp] theorem State.modOp_keyReady : (s.modOp id f).keyReady = s.keyReady := rfl
@[simp] theorem State.modOp_places : (s.modOp id f).places = s.places := rfl
@[simp] theorem State.modOp_regNow : (s.modOp id f).regNow = s.regNow := rfl
@[simp] theorem State.modOp_blocked : (s.modOp id f).blocked = s.blocked := rfl
@[simp] theorem State.modOp_acct : (s.modOp id f).acct = s.acct := rfl
@[simp] theorem State.modOp_portGot : (s.modOp id f).portGot = s.portGot := rfl
@[simp] theorem State.modOp_portWant : (s.modOp id f).portWant = s.portWant := rfl
end

/-! ## State.ask -/

section
variable (q : Txn)

@[simp] theorem State.ask_pending : (s.ask q).pending = s.pending := rfl
@[simp] theorem State.ask_ts : (s.ask q).ts = s.ts := rfl
@[simp] theorem State.ask_free : (s.ask q).free = s.free := rfl
@[simp] theorem State.ask_outbox : (s.ask q).outbox = s.outbox := rfl
@[simp] theorem State.ask_power : (s.ask q).power = s.power := rfl
@[simp] theorem State.ask_hk : (s.ask q).hk = s.hk := rfl
@[simp] theorem State.ask_od : (s.ask q).od = s.od := rfl
@[simp] theorem State.ask_ownerKey : (s.ask q).ownerKey = s.ownerKey := rfl
@[simp] theorem State.ask_captured : (s.ask q).captured = s.captured := rfl
@[simp] theorem State.ask_dictQ : (s.ask q).dictQ = s.dictQ := rfl
@[simp] theorem State.ask_stored : (s.ask q).stored = s.stored := rfl
@[simp] theorem State.ask_log : (s.ask q).log = s.log := rfl
@[simp] theorem State.ask_hr : (s.ask q).hr = s.hr := rfl
@[simp] theorem State.ask_tiles : (s.ask q).tiles = s.tiles := rfl
@[simp] theorem State.ask_tileTags : (s.ask q).tileTags = s.tileTags := rfl
@[simp] theorem State.ask_hedges : (s.ask q).hedges = s.hedges := rfl
@[simp] theorem State.ask_launches : (s.ask q).launches = s.launches := rfl
@[simp] theorem State.ask_launchPkts : (s.ask q).launchPkts = s.launchPkts := rfl
@[simp] theorem State.ask_notices : (s.ask q).notices = s.notices := rfl
@[simp] theorem State.ask_folds : (s.ask q).folds = s.folds := rfl
@[simp] theorem State.ask_tiers : (s.ask q).tiers = s.tiers := rfl
@[simp] theorem State.ask_units : (s.ask q).units = s.units := rfl
@[simp] theorem State.ask_unitNotices : (s.ask q).unitNotices = s.unitNotices := rfl
@[simp] theorem State.ask_laurel : (s.ask q).laurel = s.laurel := rfl
@[simp] theorem State.ask_drain : (s.ask q).drain = s.drain := rfl
@[simp] theorem State.ask_ports : (s.ask q).ports = s.ports := rfl
@[simp] theorem State.ask_queues : (s.ask q).queues = s.queues := rfl
@[simp] theorem State.ask_hostReads : (s.ask q).hostReads = s.hostReads := rfl
@[simp] theorem State.ask_ops : (s.ask q).ops = s.ops := rfl
@[simp] theorem State.ask_stew : (s.ask q).stew = s.stew := rfl
@[simp] theorem State.ask_resetting : (s.ask q).resetting = s.resetting := rfl
@[simp] theorem State.ask_buckets : (s.ask q).buckets = s.buckets := rfl
@[simp] theorem State.ask_partCnt : (s.ask q).partCnt = s.partCnt := rfl
@[simp] theorem State.ask_modCnt : (s.ask q).modCnt = s.modCnt := rfl
@[simp] theorem State.ask_arbs : (s.ask q).arbs = s.arbs := rfl
@[simp] theorem State.ask_briar : (s.ask q).briar = s.briar := rfl
@[simp] theorem State.ask_march : (s.ask q).march = s.march := rfl
@[simp] theorem State.ask_totals : (s.ask q).totals = s.totals := rfl
@[simp] theorem State.ask_report : (s.ask q).report = s.report := rfl
@[simp] theorem State.ask_model : (s.ask q).model = s.model := rfl
@[simp] theorem State.ask_sigRefused : (s.ask q).sigRefused = s.sigRefused := rfl
@[simp] theorem State.ask_keyReady : (s.ask q).keyReady = s.keyReady := rfl
@[simp] theorem State.ask_places : (s.ask q).places = s.places := rfl
@[simp] theorem State.ask_regNow : (s.ask q).regNow = s.regNow := rfl
@[simp] theorem State.ask_blocked : (s.ask q).blocked = s.blocked := rfl
@[simp] theorem State.ask_acct : (s.ask q).acct = s.acct := rfl
@[simp] theorem State.ask_portGot : (s.ask q).portGot = s.portGot := rfl
@[simp] theorem State.ask_portWant : (s.ask q).portWant = s.portWant := rfl
end

/-! ## State.hrCount -/

section
variable (i n : Nat)

@[simp] theorem State.hrCount_pending : (s.hrCount i n).pending = s.pending := rfl
@[simp] theorem State.hrCount_ts : (s.hrCount i n).ts = s.ts := rfl
@[simp] theorem State.hrCount_free : (s.hrCount i n).free = s.free := rfl
@[simp] theorem State.hrCount_outbox : (s.hrCount i n).outbox = s.outbox := rfl
@[simp] theorem State.hrCount_txns : (s.hrCount i n).txns = s.txns := rfl
@[simp] theorem State.hrCount_nextId : (s.hrCount i n).nextId = s.nextId := rfl
@[simp] theorem State.hrCount_power : (s.hrCount i n).power = s.power := rfl
@[simp] theorem State.hrCount_hk : (s.hrCount i n).hk = s.hk := rfl
@[simp] theorem State.hrCount_od : (s.hrCount i n).od = s.od := rfl
@[simp] theorem State.hrCount_ownerKey : (s.hrCount i n).ownerKey = s.ownerKey := rfl
@[simp] theorem State.hrCount_captured : (s.hrCount i n).captured = s.captured := rfl
@[simp] theorem State.hrCount_dictQ : (s.hrCount i n).dictQ = s.dictQ := rfl
@[simp] theorem State.hrCount_stored : (s.hrCount i n).stored = s.stored := rfl
@[simp] theorem State.hrCount_log : (s.hrCount i n).log = s.log := rfl
@[simp] theorem State.hrCount_tiles : (s.hrCount i n).tiles = s.tiles := rfl
@[simp] theorem State.hrCount_tileTags : (s.hrCount i n).tileTags = s.tileTags := rfl
@[simp] theorem State.hrCount_hedges : (s.hrCount i n).hedges = s.hedges := rfl
@[simp] theorem State.hrCount_launches : (s.hrCount i n).launches = s.launches := rfl
@[simp] theorem State.hrCount_launchPkts : (s.hrCount i n).launchPkts = s.launchPkts := rfl
@[simp] theorem State.hrCount_notices : (s.hrCount i n).notices = s.notices := rfl
@[simp] theorem State.hrCount_folds : (s.hrCount i n).folds = s.folds := rfl
@[simp] theorem State.hrCount_tiers : (s.hrCount i n).tiers = s.tiers := rfl
@[simp] theorem State.hrCount_units : (s.hrCount i n).units = s.units := rfl
@[simp] theorem State.hrCount_unitNotices : (s.hrCount i n).unitNotices = s.unitNotices := rfl
@[simp] theorem State.hrCount_laurel : (s.hrCount i n).laurel = s.laurel := rfl
@[simp] theorem State.hrCount_drain : (s.hrCount i n).drain = s.drain := rfl
@[simp] theorem State.hrCount_ports : (s.hrCount i n).ports = s.ports := rfl
@[simp] theorem State.hrCount_queues : (s.hrCount i n).queues = s.queues := rfl
@[simp] theorem State.hrCount_hostReads : (s.hrCount i n).hostReads = s.hostReads := rfl
@[simp] theorem State.hrCount_ops : (s.hrCount i n).ops = s.ops := rfl
@[simp] theorem State.hrCount_stew : (s.hrCount i n).stew = s.stew := rfl
@[simp] theorem State.hrCount_resetting : (s.hrCount i n).resetting = s.resetting := rfl
@[simp] theorem State.hrCount_buckets : (s.hrCount i n).buckets = s.buckets := rfl
@[simp] theorem State.hrCount_partCnt : (s.hrCount i n).partCnt = s.partCnt := rfl
@[simp] theorem State.hrCount_modCnt : (s.hrCount i n).modCnt = s.modCnt := rfl
@[simp] theorem State.hrCount_arbs : (s.hrCount i n).arbs = s.arbs := rfl
@[simp] theorem State.hrCount_briar : (s.hrCount i n).briar = s.briar := rfl
@[simp] theorem State.hrCount_march : (s.hrCount i n).march = s.march := rfl
@[simp] theorem State.hrCount_totals : (s.hrCount i n).totals = s.totals := rfl
@[simp] theorem State.hrCount_report : (s.hrCount i n).report = s.report := rfl
@[simp] theorem State.hrCount_model : (s.hrCount i n).model = s.model := rfl
@[simp] theorem State.hrCount_sigRefused : (s.hrCount i n).sigRefused = s.sigRefused := rfl
@[simp] theorem State.hrCount_keyReady : (s.hrCount i n).keyReady = s.keyReady := rfl
@[simp] theorem State.hrCount_places : (s.hrCount i n).places = s.places := rfl
@[simp] theorem State.hrCount_regNow : (s.hrCount i n).regNow = s.regNow := rfl
@[simp] theorem State.hrCount_blocked : (s.hrCount i n).blocked = s.blocked := rfl
@[simp] theorem State.hrCount_acct : (s.hrCount i n).acct = s.acct := rfl
@[simp] theorem State.hrCount_portGot : (s.hrCount i n).portGot = s.portGot := rfl
@[simp] theorem State.hrCount_portWant : (s.hrCount i n).portWant = s.portWant := rfl
end

/-! ## Reading back -/

@[simp] theorem State.tile_setTile (t : Nat) (x : Tile) : (s.setTile t x).tile t = x := SMap.get_set_self _ _ _ _
theorem State.tile_setTile_ne {t u : Nat} (x : Tile) (h : u ≠ t) : (s.setTile t x).tile u = s.tile u := SMap.get_set_ne _ _ _ _ h
@[simp] theorem State.tier_setTier (k : Nat) (x : Tier) : (s.setTier k x).tier k = x := SMap.get_set_self _ _ _ _
theorem State.tier_setTier_ne {k j : Nat} (x : Tier) (h : j ≠ k) : (s.setTier k x).tier j = s.tier j := SMap.get_set_ne _ _ _ _ h
@[simp] theorem State.unit_setUnit (u : Nat) (x : PUnit) : (s.setUnit u x).unit u = x := SMap.get_set_self _ _ _ _
theorem State.unit_setUnit_ne {u v : Nat} (x : PUnit) (h : v ≠ u) : (s.setUnit u x).unit v = s.unit v := SMap.get_set_ne _ _ _ _ h
@[simp] theorem State.hedge_setHedge (h : Nat) (x : Hedge) : (s.setHedge h x).hedge h = x := SMap.get_set_self _ _ _ _
@[simp] theorem State.queue_setQueue (q : Nat) (x : QPair) : (s.setQueue q x).queue q = x := SMap.get_set_self _ _ _ _
theorem State.queue_setQueue_ne {q r : Nat} (x : QPair) (h : r ≠ q) : (s.setQueue q x).queue r = s.queue r := SMap.get_set_ne _ _ _ _ h
@[simp] theorem State.bport_setBport (b : Nat) (x : BriarPort) : (s.setBport b x).bport b = x := SMap.get_set_self _ _ _ _
theorem State.bport_setBport_ne {b c : Nat} (x : BriarPort) (h : c ≠ b) : (s.setBport b x).bport c = s.bport c := SMap.get_set_ne _ _ _ _ h
@[simp] theorem State.port_setPort (p : PortId) (x : Port) : (s.setPort p x).port p = x := SMap.get_set_self _ _ _ _
theorem State.port_setPort_ne {p q : PortId} (x : Port) (h : q ≠ p) : (s.setPort p x).port q = s.port q :=
  SMap.get_set_ne _ _ _ _ (by cases p <;> cases q <;> simp_all [b2n])
@[simp] theorem State.fn_setFn (p : PortId) (f : Nat) (x : Fn) : (s.setFn p f x).fn p f = x := by
  simp [State.fn, State.setFn, State.modPort]
@[simp] theorem State.seq_setSeq (q : Nat) (x : Seq) : (s.setSeq q x).seq q = x := SMap.get_set_self _ _ _ _
theorem State.seq_setSeq_ne {q r : Nat} (x : Seq) (h : r ≠ q) : (s.setSeq q x).seq r = s.seq r := SMap.get_set_ne _ _ _ _ h

@[simp] theorem State.stamp_id (a b : HostOp) : (s.stamp a b).id = b.id := by unfold State.stamp; split <;> rfl

/-- The operation of a number after a change of it that keeps its number: where that ends it, it takes its place and time. -/
theorem State.op?_modOp {id : Nat} {o : HostOp} {f : HostOp → HostOp} (h : s.op? id = some o) (hf : ∀ x, (f x).id = x.id) :
    (s.modOp id f).op? id = some (s.stamp o (f o)) := by
  simp only [State.op?, State.modOp, List.find?_map] at h ⊢
  have e : ((fun o : HostOp => o.id == id) ∘ fun o => if o.id = id then s.stamp o (f o) else o) = fun o : HostOp => o.id == id := by
    funext o; by_cases hi : o.id = id <;> simp [hi, hf]
  rw [e, h]
  have : o.id = id := by simpa using List.find?_some h
  simp [this]

/-- The access of a number after a change of it that keeps its number. -/
theorem State.txn?_modTxn {id : Nat} {q : Txn} {f : Txn → Txn} (h : s.txn? id = some q) (hf : ∀ x, (f x).id = x.id) :
    (s.modTxn id f).txn? id = some (f q) := by
  simp only [State.txn?, State.modTxn, List.find?_map] at h ⊢
  have e : ((fun o : Txn => o.id == id) ∘ fun o => if o.id = id then f o else o) = fun o : Txn => o.id == id := by
    funext o; by_cases hi : o.id = id <;> simp [hi, hf]
  rw [e, h]
  have : q.id = id := by simpa using List.find?_some h
  simp [this]

/-! ## What the shared operations leave alone -/

/-- A relation that a step of a fold keeps, the fold keeps. -/
theorem foldl_rel {α β : Type} {r : β → β → Prop} (hr : ∀ x, r x x) (ht : ∀ {x y z}, r x y → r y z → r x z) {f : β → α → β}
    (hf : ∀ b a, r b (f b a)) (l : List α) (b : β) : r b (l.foldl f b) := by
  induction l generalizing b with
  | nil => exact hr b
  | cons a l ih => exact ht (hf b a) (ih _)

theorem State.post_frame (e : Ev) : s.post e = { s with log := (s.post e).log } := by
  unfold State.post; split <;> rfl

theorem State.postAll_frame (es : List Ev) : s.postAll es = { s with log := (s.postAll es).log } := by
  refine foldl_rel (r := fun s t : State => t = { s with log := t.log }) (fun _ => rfl) ?_ (fun s e => s.post_frame e) es s
  intro x y z h1 h2; rw [h2, h1]

theorem State.setFn_frame (p : PortId) (f : Nat) (x : Fn) : s.setFn p f x = { s with ports := (s.setFn p f x).ports } := rfl

theorem State.msix_frame (p : PortId) (f v : Nat) :
    s.msix p f v = { s with ports := (s.msix p f v).ports, outbox := (s.msix p f v).outbox } := by
  unfold State.msix; split
  · rfl
  · split <;> rfl

theorem State.fnEvent_frame (p : PortId) (f bit : Nat) :
    s.fnEvent p f bit = { s with ports := (s.fnEvent p f bit).ports, outbox := (s.fnEvent p f bit).outbox } := by
  unfold State.fnEvent
  dsimp only
  split
  · rfl
  · split
    · rw [State.msix_frame]; rfl
    · rfl

theorem State.bothPfs_frame (bit : Nat) :
    s.bothPfs bit = { s with ports := (s.bothPfs bit).ports, outbox := (s.bothPfs bit).outbox } := by
  unfold State.bothPfs; rw [State.fnEvent_frame, State.fnEvent_frame s]

theorem State.asks_frame (part : Option Nat) (l : List Txn) :
    l.foldl (fun s q => s.ask { q with part := part }) s =
      { s with txns := (l.foldl (fun s q => s.ask { q with part := part }) s).txns
               nextId := (l.foldl (fun s q => s.ask { q with part := part }) s).nextId } := by
  refine foldl_rel (r := fun s t : State => t = { s with txns := t.txns, nextId := t.nextId }) (fun _ => rfl) ?_ (fun s e => rfl) l s
  intro x y z h1 h2; rw [h2, h1]

theorem State.dropDescs_frame (t : Nat) : s.dropDescs t = { s with txns := (s.dropDescs t).txns } := rfl

/-- What a tile's part of a step leaves alone: all but the tiles and their tags, the accesses in flight, the log's intake, the totals and the folds. -/
theorem State.fromWork_frame (t : Nat) (w : Work) :
    s.fromWork t w = { s with
      tiles := s.tiles.set {} t w.t, tileTags := (s.fromWork t w).tileTags, txns := (s.fromWork t w).txns
      nextId := (s.fromWork t w).nextId, log := (s.fromWork t w).log, totals := (s.fromWork t w).totals
      folds := (s.fromWork t w).folds } := by
  obtain ⟨g, a, b, l, o, f, h⟩ : ∃ g a b l o f, s.fromWork t w = { s with
      tiles := s.tiles.set {} t w.t, tileTags := g, txns := a, nextId := b, log := l, totals := o, folds := f } := by
    unfold State.fromWork
    obtain ⟨l, h⟩ : ∃ l, (s.setTile t w.t).postAll w.evs = { s.setTile t w.t with log := l } := ⟨_, State.postAll_frame _ _⟩
    simp only [h]
    rw [State.asks_frame]
    split <;> split <;> exact ⟨_, _, _, _, _, _, rfl⟩
  rw [h]

@[simp] theorem State.fromWork_tile (t : Nat) (w : Work) : (s.fromWork t w).tile t = w.t := by
  rw [State.fromWork_frame]; exact SMap.get_set_self _ _ _ _

theorem State.fromWork_tile_ne {t u : Nat} (w : Work) (h : u ≠ t) : (s.fromWork t w).tile u = s.tile u := by
  rw [State.fromWork_frame]; exact SMap.get_set_ne _ _ _ _ h

end Sys2Proof.Machine
end

