-- ==== Sys2Proof/Laws/Waits.lean ====
section
/-!
SUPPORT. When nothing holds a command up: no page in conversion (07 R221), no regulator in force for its partition (07 R239).
-/

namespace Sys2Proof.Machine

theorem SMap.get_of_forall {α : Type} {d : α} {P : α → Prop} (hd : P d) : ∀ {m : SMap α}, (∀ x ∈ m, P x.2) → ∀ k, P (SMap.get d m k)
  | [], _, _ => hd
  | (j, v) :: r, h, k => by
    unfold SMap.get
    split
    · exact h (j, v) (List.mem_cons_self ..)
    · exact SMap.get_of_forall hd (fun x hx => h x (List.mem_cons_of_mem _ hx)) k

theorem State.noConv_of_tiers {s : State} (h : ∀ x ∈ s.tiers, x.2.conv = none) : s.noConv :=
  fun k => SMap.get_of_forall (P := fun t : Tier => t.conv = none) (by unfold tierReset; split <;> rfl) h k

/-- At its reset settings no regulator of partition 0 is enabled (07 R240). -/
theorem State.regsOff_of_reset {s : State} (h : s.regNow = []) : s.regsOff 0 := by
  intro b
  unfold State.regOn State.regv
  rw [h]
  repeat' split
  all_goals decide +kernel

theorem State.allPaid_of_regsOff {s : State} {p : Nat} (h : s.regsOff p) : s.allPaid p := fun b => by
  simp [State.paid, h b]

theorem State.mayPass_of_regsOff {s : State} {p : Nat} (h : s.regsOff p) (b : Nat) : s.mayPass (some p) b = true := by
  simp [State.mayPass, State.mayAccess, State.allPaid_of_regsOff h b]

end Sys2Proof.Machine
end

