-- ==== Sys2Proof/WellFormed.lean ====
section
/-!
DEFINITION. Well-formed commands: operands that the hardware outside can bring. `exec` gives a meaning to every command; these checks say
which commands the manual's own limits let happen.
-/

namespace Sys2Proof

/-- An engine command's fields are in the ranges of 04 R115, R126 and 05 R145, and it names formats and pairs of formats that a command can (05 R151, R153). -/
def EngCmd.wf (c : EngCmd) : Bool :=
  decide (1 ≤ c.span) && decide (c.span ≤ 65535) &&
  (match c.opening with
   | none => true
   | some o => o.first.all (fun x => o.engaged.contains x.1) && o.engaged.all (fun e => o.first.any (·.1 == e))) &&
  (match c.op with
   | .tstore rows _ _ _ _ _ _ _ _ _ _ => decide (rows ≤ 64)
   | .vload _ off len _ _ => decide (off + len ≤ 512)
   | .vstore _ off len _ _ => decide (off + len ≤ 512)
   | _ => true) &&
  Machine.opExpressible c.op

/-- Disturbance masks fit a protected word (07 R211). -/
def Upset.wf (u : Upset) : Bool := decide (u.w0 < 2 ^ 288) && decide (u.w1 < 2 ^ 288)

/-- A measurement round brings six rails and two fans (14 R452, R457, R468). -/
def RoundIn.wf (r : RoundIn) : Bool := r.rails.length == 6 && r.fans.length == 2

/-- The rounds of a start bring all 24 channels, and there is one at least: every start that is not cut short in step 1 has one. -/
def StartIn.wf (o : StartIn) : Bool := !o.rounds.isEmpty && o.rounds.all fun r => r.1.length == 24 && r.2.wf

/-- A frame has 1,040 bytes (12 R397). -/
def FrameIn.wf (f : FrameIn) : Bool := f.bytes.length == 1040

/-- Is a command one that can happen? -/
def Instr.wf (i : Instr) : Bool :=
  match i with
  | .coldStart o => o.wf
  | .warmStart o => o.wf
  | .measurementRoundEnd r => r.wf
  | .engineCommandPush _ _ (some c) _ => c.wf
  | .meshPacketInject ids => decide (1 ≤ ids.length) && decide (ids.length ≤ 4)
  | .homeRead _ u => u.wf
  | .homeWrite _ u => u.wf
  | .homeAtomic _ u => u.wf
  | .scrubGrain _ u => u.wf
  | .regionConversionGrain _ u => u.wf
  | .apertureRead _ a n _ => decide (1 ≤ n) && decide (n ≤ 4096) && decide (a + n ≤ 2 ^ 36)
  | .apertureWrite _ a d _ _ => decide (1 ≤ d.length) && decide (d.length ≤ 512) && decide (a + d.length ≤ 2 ^ 36)
  | .hostReadCompletion _ d _ _ _ => decide (d.length ≤ 4096)
  | .mailboxWrite _ _ _ _ n => decide (n < 512)
  | .briarFrameReceive _ f => f.wf
  | .arbiterGrant _ rs => decide (rs.length ≤ 8) && rs.all (fun r => decide (r.req < 8) && decide (r.cls < 3))
  | _ => true

end Sys2Proof
end

