-- ==== Sys2Proof/Tests/Slice0.lean ====
section
/-!
SUPPORT. Tests: an ill-formed term for each check of WellFormed, worked figures of the spec, and for every statement a state and operands that meet its
hypotheses, with the main fields of what it concludes. Each is one step on a small state.
-/

set_option Elab.async false

namespace Sys2Proof.Tests

open Sys2Proof Sys2Proof.Machine

/-! ## Helpers -/

/-- The state after a command. -/
def nx (c : Instr) (s : State) : State := match exec c s with
  | .next t => t
  | _ => s

/-- After reset, with both host links trained. -/
def up : State := { State.reset with ports := [(0, { up := true, rate := 6, width := 8 }), (1, { up := true, rate := 6, width := 8 })] }

/-- A round with every sensor out of order: nothing of it is a valid temperature (14 R454). -/
def mute : List Sample × RoundIn :=
  (List.replicate 12 { opened := true } ++ List.replicate 8 { a := 1750001 } ++ List.replicate 4 ({} : Sample), { rails := List.replicate 6 (0, 0, 0), fans := [0, 0] })
/-- A start that meets no failure. -/
def oStart : StartIn := { rounds := [mute] }

/-- `up` with a tile 0. -/
def withTile (x : Tile) : State := { up with tiles := [(0, x)] }

/-- An address without strides. -/
def z (a : Nat) : Addr := ⟨a, []⟩

/-- A whole command of span 1, the first of its queue. -/
def qc (op : EngOp) (got : List Piece := []) : QCmd := ⟨⟨1, none, op, none⟩, 0, false, got, none⟩

/-- A tile in kernel beat 10 whose engine `e` has `q` due now. -/
def inK (e : Nat) (q : QCmd) : Tile :=
  { kern := { inKernel := true, opened := true, decl := some ⟨[], []⟩, launch := 7 }, sched := { kbeat := 10 }
    eng := [(e, { queue := [q], engaged := true, next := 10, pushed := 1 })] }

/-- The state in which it is issued. -/
def due (e : Nat) (q : QCmd) : State := withTile (inK e q)

/-- Tile 0 after a command. -/
def t0 (c : Instr) (s : State) : Tile := (nx c s).tile 0

/-- A descriptor of a BF16 table of `rows` rows of 32 elements, row stride 64 bytes, one outer dimension, at `base`; local where asked (06 R181). -/
def bfTable (base rows : Nat) (loc : Bool) : Piece :=
  ⟨leBytes 8 base ++ leBytes 8 (1 + 16 + if loc then 2 ^ 40 else 0) ++ leBytes 4 32 ++ leBytes 4 2 ++ leBytes 4 rows ++ leBytes 4 64 ++ zeros 32, false⟩

/-- The transfer descriptor of its whole window. -/
def wholeOf (rows : Nat) : Piece := ⟨leBytes 8 0x100000 ++ zeros 20 ++ leBytes 4 32 ++ leBytes 4 rows ++ zeros 28, false⟩

/-! ## WellFormed refuses an ill-formed term at each of its checks -/

theorem test_wf_span : Instr.wf (.engineCommandPush 0 0 (some ⟨0, none, .tswap, none⟩) false) = false ∧
    Instr.wf (.engineCommandPush 0 0 (some ⟨65536, none, .tswap, none⟩) false) = false ∧
    Instr.wf (.engineCommandPush 0 0 (some ⟨1, none, .tswap, none⟩) false) = true := by decide
theorem test_wf_opening : Instr.wf (.engineCommandPush 0 0 (some ⟨1, none, .tswap, some ⟨[0], [(1, 0)]⟩⟩) false) = false ∧
    Instr.wf (.engineCommandPush 0 0 (some ⟨1, none, .tswap, some ⟨[0], []⟩⟩) false) = false := by decide
theorem test_wf_formats : Instr.wf (.engineCommandPush 0 0 (some ⟨1, none, .tload 0 (z 0) (z 0) false false, none⟩) false) = false ∧
    Instr.wf (.engineCommandPush 0 0 (some ⟨1, none, .tload 10 (z 0) (z 0) false false, none⟩) false) = false ∧
    Instr.wf (.engineCommandPush 0 0 (some ⟨1, none, .tmul 0 1 1 (z 0) (z 0) 0 0 0 0 false false false, none⟩) false) = false ∧
    Instr.wf (.engineCommandPush 0 0 (some ⟨1, none, .tmul 1 12 1 (z 0) (z 0) 0 0 0 0 false false false, none⟩) false) = false ∧
    Instr.wf (.engineCommandPush 0 0 (some ⟨1, none, .tstore 65 (z 0) false 6 false 0 none 0 0 0 false, none⟩) false) = false ∧
    Instr.wf (.engineCommandPush 0 0 (some ⟨1, none, .tstore 64 (z 0) false 15 false 0 none 0 0 0 false, none⟩) false) = false := by decide
theorem test_wf_vregBytes : Instr.wf (.engineCommandPush 0 1 (some ⟨1, none, .vload 0 500 13 (z 0) false, none⟩) false) = false ∧
    Instr.wf (.engineCommandPush 0 1 (some ⟨1, none, .vstore 0 513 0 (z 0) false, none⟩) false) = false := by decide
theorem test_wf_upset : Instr.wf (.homeRead 0 { w0 := 16 ^ 72 }) = false ∧ Instr.wf (.homeWrite 0 { w1 := 16 ^ 72 }) = false ∧
    Instr.wf (.homeAtomic 0 { w0 := 16 ^ 72 }) = false ∧ Instr.wf (.scrubGrain 0 { w0 := 16 ^ 72 }) = false ∧
    Instr.wf (.regionConversionGrain 0 { w1 := 16 ^ 72 }) = false := by decide +kernel
theorem test_wf_round : Instr.wf (.measurementRoundEnd {}) = false ∧ Instr.wf (.measurementRoundEnd { rails := List.replicate 6 (0, 0, 0) }) = false := by decide
theorem test_wf_ports : Instr.wf (.meshPacketInject []) = false ∧ Instr.wf (.meshPacketInject [1, 2, 3, 4, 5]) = false ∧
    Instr.wf (.apertureRead false 0 0 0) = false ∧ Instr.wf (.apertureRead false (2 ^ 36) 1 0) = false ∧ Instr.wf (.apertureRead false 0 4097 0) = false ∧
    Instr.wf (.apertureWrite false 0 [] false 0) = false ∧ Instr.wf (.apertureWrite false 0 (List.replicate 513 0#8) false 0) = false ∧
    Instr.wf (.apertureWrite false (2 ^ 36) (zeros 1) false 0) = false ∧ Instr.wf (.mailboxWrite false 0 0 0 512) = false := by decide +kernel
theorem test_wf_hostRead : Instr.wf (.hostReadCompletion 0 (zeros 4097) true false 0) = false := by decide +kernel
theorem test_wf_frame : Instr.wf (.briarFrameReceive 0 { bytes := zeros 1039 }) = false ∧ Instr.wf (.briarFrameReceive 0 { bytes := zeros 1040 }) = true := by decide +kernel
theorem test_wf_start : Instr.wf (.coldStart {}) = false ∧ Instr.wf (.warmStart { rounds := [([], { rails := [], fans := [] })] }) = false := by decide
theorem test_wf_arbiter : Instr.wf (.arbiterGrant 0 (List.replicate 9 { req := 0 })) = false ∧
    Instr.wf (.arbiterGrant 0 [{ req := 8 }]) = false ∧ Instr.wf (.arbiterGrant 0 [{ req := 0, cls := 3 }]) = false := by decide


/-! ## The machine -/

theorem test_step_front : step { up with pending := [.timebaseTick] } = exec .timebaseTick up ∧ step up = .next up := ⟨rfl, rfl⟩
theorem test_clock_tick : clockRow .sweep = false ∧ (nx .timebaseTick up).ts = up.ts + 40 ∧ (nx .sweep up).ts = up.ts := by decide +kernel
theorem test_clock_never_falls : (∀ o, Instr.timebaseTick ≠ .coldStart o) ∧ (∀ o, Instr.timebaseTick = .warmStart o → o.storeBad = false) ∧
    (nx .timebaseTick up).ts ≥ up.ts := by
  refine ⟨by simp, by simp, by decide +kernel⟩
theorem test_clock_warm : ∃ s : State, ∃ o : StartIn, s.power.phase = .warm ∧ o.storeBad = false ∧ s.ts < (nx (.warmStart o) s).ts :=
  ⟨{ up with power := { up.power with phase := .warm } }, oStart, by decide +kernel⟩
theorem test_links : up.power.on = true ∧ up.power.bypassOpen = true ∧ (nx (.hedgerowLinkUp true) up).hr.inUp = true ∧
    (nx (.hedgerowLinkUp false) up).hr.outUp = true ∧ (nx (.hedgerowLinkDown true) (nx (.hedgerowLinkUp true) up)).hr.inUp = false := by decide +kernel
theorem test_reset_inv : State.reset.ts % 40 = 0 ∧ State.reset.hk.thermal = 0 ∧ State.reset.pending = [] ∧ State.reset.isReady = true := by decide
theorem test_reset_power : State.reset.power.ok := by unfold Power.ok; decide
theorem test_reset_hk : State.reset.hk.ok := by unfold Hk.ok; simp [State.reset, Hk.atReady]
theorem test_island_row : powerRow .sweep = false ∧ (nx .sweep up).power = up.power ∧ (nx .sweep up).hk = up.hk := by decide +kernel

/-! ## Engines -/

/-- A BF16 TLOAD, a TMUL of three rows, a TSTORE of two. -/
def opTload : EngOp := .tload 1 (z 0x1040) (z 0) false true
def opTloadMx : EngOp := .tload 5 (z 0x1047) (z 0x2001) false true
def opTmul : EngOp := .tmul 1 1 3 (z 0x1044) (z 0) 0 0 0 0 true false false
def opTstore : EngOp := .tstore 2 (z 0x3000) false 1 false 0 none 0 0 0 false

theorem test_engine_issue : issues (due 0 (qc opTload)) 0 0 (qc opTload) ∧ ownOp 0 opTload = true ∧ rowOf 0 0 opTload = .tload 0 ∧
    ((t0 (.tload 0) (due 0 (qc opTload))).engine 0).next = 11 :=
  ⟨by unfold issues; decide +kernel, rfl, rfl, by decide +kernel⟩
theorem test_tload : (t0 (.tload 0) (due 0 (qc opTload))).reads.length = 128 ∧
    (t0 (.tload 0) (due 0 (qc opTload))).reads.head? = some ⟨10, 0, 0, 0, .tload, 0, 0x1040, 64, 0, false⟩ ∧
    (t0 (.tload 0) (due 0 (qc opTload))).lands = [⟨10 + 128 + 1, 10, .shadow 0⟩] ∧ (t0 (.tload 0) (due 0 (qc opTload))).tloadOk = 138 := by decide +kernel
theorem test_tload_mx : isMx 5 = true ∧ issues (due 0 (qc opTloadMx)) 0 0 (qc opTloadMx) ∧ ((due 0 (qc opTloadMx)).tile 0).count cMisaligned < 2 ^ 32 ∧
    ((t0 (.tload 0) (due 0 (qc opTloadMx))).reads.getD 65 ⟨0, 0, 0, 0, .row, 0, 0, 0, 0, false⟩).addr = 0x2040 ∧
    (t0 (.tload 0) (due 0 (qc opTloadMx))).count cMisaligned = 2 ∧ (t0 (.tload 0) (due 0 (qc opTloadMx))).ctl.fault = 0 := by unfold issues; decide +kernel
theorem test_tswap : issues (due 0 (qc .tswap)) 0 0 (qc .tswap) ∧ (t0 (.tswap 0) (due 0 (qc .tswap))).lands = [⟨11, 10, .swap⟩] := by unfold issues; decide +kernel
theorem test_tmul : issues (due 0 (qc opTmul)) 0 0 (qc opTmul) ∧
    (t0 (.tmul 0) (due 0 (qc opTmul))).reads = [⟨10, 0, 0, 0, .tmul, 0, 0x1040, 128, 0, true⟩, ⟨14, 0, 0, 0, .tmul, 1, 0x10C0, 128, 0, true⟩,
      ⟨18, 0, 0, 0, .tmul, 2, 0x1140, 128, 0, true⟩] ∧ (t0 (.tmul 0) (due 0 (qc opTmul))).count cMisaligned = 1 := by unfold issues; decide +kernel
theorem test_tzero : issues (due 0 (qc .tzero)) 0 0 (qc .tzero) ∧ (t0 (.tzero 0) (due 0 (qc .tzero))).lands = [⟨11, 10, .accZero⟩] := by unfold issues; decide +kernel
theorem test_tstore : issues (due 0 (qc opTstore)) 0 0 (qc opTstore) ∧ ((t0 (.tstore 0) (due 0 (qc opTstore))).reads.map (·.beat)) = [10, 11] ∧
    (t0 (.tstore 0) (due 0 (qc opTstore))).ops.map (fun o => (o.id, o.issue, o.bases)) = [(0, 10, [0x3000])] := by unfold issues; decide +kernel

/-- The vector engine's due command. -/
def vop (op : VOp) (half : Bool := false) : EngOp := .vec op half 4 1 2 3 false false false

theorem test_vload : issues (due 1 (qc (.vload 3 0 512 (z 0x100) false))) 0 1 (qc (.vload 3 0 512 (z 0x100) false)) ∧
    (t0 (.vload 0) (due 1 (qc (.vload 3 0 512 (z 0x100) false)))).reads = [⟨10, 1, 0, 0, .vload, 0, 0x100, 512, 0, false⟩] := by unfold issues; decide +kernel
theorem test_vstore : issues (due 1 (qc (.vstore 1 0 64 (z 0x130) false))) 0 1 (qc (.vstore 1 0 64 (z 0x130) false)) ∧
    (t0 (.vstore 0) (due 1 (qc (.vstore 1 0 64 (z 0x130) false)))).writes.map (fun w => (w.beat, w.addr, w.data.bytes.length)) = [(12, 0x130, 64)] := by
  unfold issues; decide +kernel
theorem test_lane_issue : ∀ op ∈ [VOp.add, .mul, .fma, .max, .min, .cmp .lt, .sel, .exp, .rcp, .rsqrt, .silu, .redSum, .redMax], ∀ h ∈ [false, true],
    issues (due 1 (qc (vop op h))) 0 1 (qc (vop op h)) := by unfold issues; decide +kernel
theorem test_vcvt_issue : issues (due 1 (qc (.vcvt 2 1 0 3 0 0 0 false 0 none false))) 0 1 (qc (.vcvt 2 1 0 3 0 0 0 false 0 none false)) ∧
    issues (due 1 (qc (.vscale 2 1 false 5 false false))) 0 1 (qc (.vscale 2 1 false 5 false false)) := by unfold issues; decide +kernel
/-- 1.0 + 2.0, 1.5 × 2.0, 1.0 × 2.0 + 3.0 and the larger and the smaller of 1.0 and −2.0, rounded in FP32; a NaN comes out as the NaN code (05 R160). -/
theorem test_lanes : (laneOp .add false 0x3F800000 0x40000000 0).1 = 0x40400000 ∧ (laneOp .mul false 0x3FC00000 0x40000000 0).1 = 0x40400000 ∧
    (laneOp .fma false 0x3F800000 0x40000000 0x40400000).1 = 0x40A00000 ∧ (laneOp .max false 0x3F800000 0xC0000000 0).1 = 0x3F800000 ∧
    (laneOp .min false 0x3F800000 0xC0000000 0).1 = 0xC0000000 ∧ (laneOp .sel false 1 2 3).1 = 2 ∧ (laneOp .sel false 2 2 3).1 = 3 := by decide +kernel
/-- The worked sums of 05 R175: order of arrival decides between 1.0 and 1 + 2^-23. -/
theorem test_sum_order : addF32 (addF32 0x3F800000 0x33800000) 0x33800000 = 0x3F800000 ∧ addF32 0x3F800000 (addF32 0x33800000 0x33800000) = 0x3F800001 := by
  decide +kernel

/-- Gather and DMA commands with their descriptors read. -/
def gl : QCmd := qc (.glocal 17 (z 0x400) (z 0x800) (.scratch 0) true false) [bfTable 0x1000 4 true]
def gr (op : EngOp) (loc : Bool := false) : QCmd := qc op [bfTable 0x1000 4 loc]
def opGr : EngOp := .gremote 3 (z 0x400) (z 0x800) (.die 0x100000) 2 .relaxed false
def opSc (c : Option Comb) : EngOp := .scatter c 3 (z 0x400) (z 0x800) (.die 0x100000) 2 .relaxed false
/-- An FP32 table, as SCATTER_ADD needs. -/
def f32Table : Piece := ⟨leBytes 8 0x1000 ++ leBytes 8 16 ++ leBytes 4 16 ++ leBytes 4 1 ++ leBytes 4 4 ++ leBytes 4 64 ++ zeros 32, false⟩
/-- A table with seven dimensions, which no descriptor has. -/
def badTable : Piece := ⟨leBytes 8 0x1000 ++ leBytes 8 (1 + 7 * 16) ++ zeros 48, false⟩

theorem test_glocal : issues (due 2 gl) 0 2 gl ∧ (match tableOf 0 gl.got with | .ok d => d.dims != 0 && d.isLocal && rowGrains d == 1 | _ => false) = true ∧
    (t0 (.glocal 0) (due 2 gl)).reads.map (fun r => (r.beat, r.addr)) = [(10, 0x400), (11, 0x440)] := by unfold issues; decide +kernel
theorem test_gremote : issues (due 2 (gr opGr)) 0 2 (gr opGr) ∧ (match tableOf 0 (gr opGr).got with | .ok d => d.dims != 0 && rowGrains d == 1 | _ => false) = true ∧
    (t0 (.gremote 0) (due 2 (gr opGr))).ops.map (fun o => (o.tally, o.left)) = [(some 2, 1)] ∧ (nx (.gremote 0) (due 2 (gr opGr))).txns = [] := by
  unfold issues; decide +kernel
theorem test_scatter : issues (due 2 (gr (opSc none))) 0 2 (gr (opSc none)) ∧
    (t0 (.scatter 0) (due 2 (gr (opSc none)))).ops.map (fun o => (o.tally, o.left)) = [(some 2, 1)] := by unfold issues; decide +kernel
theorem test_scatterAdd : issues (due 2 (qc (opSc (some .addF32)) [f32Table])) 0 2 (qc (opSc (some .addF32)) [f32Table]) ∧
    (match tableOf 0 [f32Table] with | .ok d => d.dims != 0 && d.fmt == 0 | _ => false) = true ∧
    (t0 (.scatterAdd 0) (due 2 (qc (opSc (some .addF32)) [f32Table]))).ops.map (·.left) = [1] := by unfold issues; decide +kernel
theorem test_gather_bad : issues (due 2 (qc opGr [badTable])) 0 2 (qc opGr [badTable]) ∧ tableOf 0 [badTable] = .bad ∧
    (t0 (.gremote 0) (due 2 (qc opGr [badTable]))).count cDescBad = 1 := by unfold issues; decide +kernel

def dl : QCmd := qc (.dlocal 5 (z 0x1000) (z 0x2000) false)
def dOut : QCmd := qc (.dout 5 (z 0x1000) (.plain (z 0x100000)) 1 none .relaxed true)
def dOutW (d : Piece) : QCmd := qc (.dout 5 (z 0x1000) (.window (.die 0x100000)) 1 none .relaxed true) [wholeOf 4, d]
def dIn : QCmd := qc (.din 2 (z 0x1000) (.plain (z 0x100000)) 1 .relaxed)
def dInW (d : Piece) : QCmd := qc (.din 5 (z 0x1000) (.window (.die 0x100000)) 1 .relaxed) [wholeOf 4, d]

theorem test_dlocal : issues (due 3 dl) 0 3 dl ∧ (t0 (.dlocal 0) (due 3 dl)).reads.map (fun r => (r.beat, r.addr)) =
    [(10, 0x1000), (10, 0x1040), (10, 0x1080), (10, 0x10C0), (11, 0x1100)] := by unfold issues; decide +kernel
theorem test_dout : issues (due 3 dOut) 0 3 dOut ∧ (t0 (.dout 0) (due 3 dOut)).reads.length = 5 ∧
    (t0 (.dout 0) (due 3 dOut)).ops.map (fun o => (o.tally, o.left)) = [(some 1, 5)] := by unfold issues; decide +kernel
theorem test_dout_window : issues (due 3 (dOutW (bfTable 0x1000 4 false))) 0 3 (dOutW (bfTable 0x1000 4 false)) ∧
    (match windowOf 0 (dOutW (bfTable 0x1000 4 false)).got with | .ok w => w.grains == 4 | _ => false) = true ∧
    (t0 (.dout 0) (due 3 (dOutW (bfTable 0x1000 4 false)))).reads.length = 4 := by unfold issues; decide +kernel
theorem test_din : issues (due 3 dIn) 0 3 dIn ∧ (nx (.din 0) (due 3 dIn)).txns.map (fun y => (y.dest.addr, y.len, y.stage == .queued)) =
    [(0x100000, 64, true), (0x100040, 64, true)] ∧ (t0 (.din 0) (due 3 dIn)).reads = [] := by unfold issues; decide +kernel
theorem test_din_window : issues (due 3 (dInW (bfTable 0x1000 4 false))) 0 3 (dInW (bfTable 0x1000 4 false)) ∧
    (t0 (.din 0) (due 3 (dInW (bfTable 0x1000 4 false)))).ops.map (fun o => (o.tally, o.grains.length)) = [(some 1, 5)] := by unfold issues; decide +kernel
theorem test_window_bad : issues (due 3 (dInW badTable)) 0 3 (dInW badTable) ∧ windowOf 0 (dInW badTable).got = .bad ∧
    (t0 (.din 0) (due 3 (dInW badTable))).count cDescBad = 1 ∧ (nx (.din 0) (due 3 (dInW badTable))).txns = [] := by unfold issues; decide +kernel

theorem test_loopCount : issues (due 1 (qc (.loopCount 2 7))) 0 1 (qc (.loopCount 2 7)) ∧
    SMap.get 0 ((t0 (.loopCountWrite 0 1) (due 1 (qc (.loopCount 2 7)))).engine 1).counts 2 = 7 := by unfold issues; decide +kernel
theorem test_loop_skips : issues (due 1 (qc (.loop 2 3))) 0 1 (qc (.loop 2 3)) ∧ ((due 1 (qc (.loop 2 3))).tile 0 |>.engine 1).frames = [] ∧
    ((t0 (.loop 0 1) (due 1 (qc (.loop 2 3)))).engine 1).skip = 3 := by unfold issues; decide +kernel
/-- A LOOP whose count register holds 5, outside and inside another body. -/
def loopIn (fs : List LoopFrame) (pos : Nat) (b : List QCmd) : State :=
  withTile { inK 1 (qc (.loop 2 3)) with eng := [(1, { queue := if b = [] then [qc (.loop 2 3)] else [], engaged := true, next := 10, counts := [(2, 5)], frames := fs, pos := pos, buf := b })] }
theorem test_loop_enters : issues (loopIn [] 0 []) 0 1 (qc (.loop 2 3)) ∧ ((t0 (.loop 0 1) (loopIn [] 0 [])).engine 1).frames = [⟨0, 3, 5, 0⟩] := by
  unfold issues; decide +kernel
theorem test_loop_nested : issues (loopIn [⟨0, 9, 2, 0⟩] 1 [qc .fin, qc (.loop 2 3)]) 0 1 (qc (.loop 2 3)) ∧
    ((t0 (.loop 0 1) (loopIn [⟨0, 9, 2, 0⟩] 1 [qc .fin, qc (.loop 2 3)])).engine 1).frames = [⟨2, 3, 5, 0⟩, ⟨0, 9, 2, 0⟩] := by unfold issues; decide +kernel
theorem test_end : issues (due 3 (qc .fin)) 0 3 (qc .fin) ∧ ((t0 (.endEngine 0 3) (due 3 (qc .fin))).engine 3).ended = true ∧
    (t0 (.endEngine 0 3) (due 3 (qc .fin))).sched.ended = 8 := by unfold issues; decide +kernel


/-! ## Power, resets, starts, measurement (01, 02, 14, 16) -/

/-- The module off, in reset, and with a start due. -/
def off : State := nx (.inputLockout false) up
def offOv : State := nx (.inputLockout true) up
def inRst : State := nx .pwrPresOpen up
def startDue (ph : Phase) : State := { inRst with power := { inRst.power with phase := ph, pwrPresOpen := false } }

theorem test_power_on : off.power.on = false ∧ off.power.ovLock = false ∧ (nx (.powerApplied 46500 5) off).power.phase = .cold ∧
    (nx (.powerApplied 46500 5) off).power.slotId = 5 ∧ (nx (.powerApplied 57999 5) off).power.on = true ∧ nx (.powerApplied 46499 5) off = off := by decide +kernel
theorem test_power_off : up.power.on = true ∧ off.power.phase = .off ∧ off.power.coreRail = false ∧ off.txns = [] ∧ (off.port false).up = false := by decide +kernel
theorem test_overvoltage : offOv.power.on = false ∧ offOv.power.ovLock = true ∧ (nx (.overvoltageLockoutRelease 57000 1) offOv).power.phase = .cold ∧
    (nx (.powerApplied 50000 5) offOv).power.on = false ∧ (nx (.inputLockout false) offOv).power.ovLock = false := by decide +kernel
theorem test_input_low : up.power.on = true ∧ up.power.bypassOpen = true ∧ up.log.intake.length < 64 ∧
    (nx (.inputLowExcursion 44000 3) up).log.intake.map (fun e => (e.code, e.source, e.args)) = [(0x02, 0x90, [44000, 3])] ∧
    (nx (.inputLowExcursion 47999 3) up).log.intake.length = 1 ∧ nx (.inputLowExcursion 48000 3) up = up := by decide +kernel
theorem test_reset_pres : up.power.phase ≠ .inReset ∧ inRst.power.phase = .inReset ∧ inRst.power.causeLatch = 2 ∧ inRst.hk = Hk.stopped ∧
    (inRst.port true).up = false := by decide +kernel
theorem test_reset_pin : (nx (.moduleReset 10000 false) up).power.causeLatch = 1 ∧ (nx (.moduleReset 1000 true) up).power.phase = .inReset ∧
    nx (.moduleReset 999 true) up = up ∧ (nx (.moduleReset 10000 false) up).power.coldNext = false := by decide +kernel
theorem test_reset_rails : up.power.coreRail = true ∧ (nx .corePowerGoodLoss up).power.causeLatch = 3 ∧ (nx .corePowerGoodLoss up).power.coldNext = true ∧
    up.power.railOn 2 = true ∧ up.odv 0x7801 1 = 0 ∧ (nx (.regulatorFault 2 9) up).power.causeRail = 2 ∧ (nx (.regulatorFault 2 9) up).power.causeLatch = 4 ∧
    (nx .alwaysOnRailLoss up).power.causeLatch = 0 ∧ (nx .alwaysOnRailLoss up).power.phase = .inReset := by decide +kernel
theorem test_reset_release : (nx (.pwrPresClose 9) inRst).power.phase = .warm ∧ (nx (.pwrPresClose 9) inRst).power.slotId = 9 ∧
    (nx (.moduleResetRelease 3) (nx (.moduleReset 10000 false) up)).power.phase = .warm ∧
    (nx (.moduleResetRelease 3) (nx .corePowerGoodLoss up)).power.phase = .cold := by decide +kernel
theorem test_reset_held : (nx (.moduleReset 10000 false) inRst).power.modReset = true ∧
    (nx (.pwrPresClose 9) (nx (.moduleReset 10000 false) inRst)).power.phase = .inReset := by decide +kernel
theorem test_start_cold : (startDue .cold).power.on = true ∧ (startDue .cold).power.phase = .cold ∧ (nx (.coldStart oStart) (startDue .cold)).power.phase = .ready ∧
    (nx (.coldStart oStart) (startDue .cold)).ts = 1800000000 ∧ (nx (.coldStart oStart) (startDue .cold)).power.coldStarts = 2 ∧
    ((nx (.coldStart oStart) (startDue .cold)).log.records.head?.map fun r => (r.seq, r.ev.code, r.ev.args)) = some (1, 0x01, [1, 2, 0]) := by decide +kernel
theorem test_start_warm : (startDue .warm).power.phase = .warm ∧ (nx (.warmStart oStart) (startDue .warm)).power.phase = .ready ∧
    (nx (.warmStart oStart) (startDue .warm)).ts = up.ts + 350000000 ∧ (nx (.warmStart oStart) (startDue .warm)).power.warmStarts = 1 := by decide +kernel
/-- A start that fails in the step, with the detail, of `f`: the phase it leaves. -/
def stopsAt (f : Nat × Nat) : Phase := (nx (.coldStart { oStart with fail := some f }) (startDue .cold)).power.phase
theorem test_start_fails : (startDue .cold).power.phase = .cold ∧ stopsAt (1, 1) = .stopped ∧ stopsAt (3, 3) = .stopped := by decide +kernel
theorem test_start_fails_late : stopsAt (6, 4) = .stopped ∧ stopsAt (8, 5) = .stopped := by decide +kernel
theorem test_start_fail_word : (startDue .warm).power.phase = .warm ∧
    (nx (.warmStart { oStart with fail := some (6, 4) }) (startDue .warm)).power.startFail = 1030 := by decide +kernel
theorem test_start_tiles : (startDue .cold).odv 0x7801 1 = 0 ∧ (nx (.coldStart oStart) { startDue .cold with tiles := [(0, { vreg := [(3, 1#8)] })] }).tile 0 = {} ∧
    ((nx (.warmStart oStart) { startDue .warm with tiles := [(0, { vreg := [(3, 1#8)], words := [(1, 1), (2, 2)] })] }).tile 0).vreg = [(3, 1#8)] ∧
    ((nx (.warmStart oStart) { startDue .warm with tiles := [(0, { vreg := [(3, 1#8)], words := [(1, 1), (2, 2)] })] }).tile 0).words = [(1, 1)] ∧
    (nx (.warmStart oStart) { startDue .warm with power := { (startDue .warm).power with fromSlumber := true }, tiles := [(0, { vreg := [(3, 1#8)] })] }).tile 0 = {} := by
  decide +kernel

/-- The measurement has come to slot `n`. -/
def atSlot (n : Nat) : State := { up with ts := up.ts + 32000000, hk := { up.hk with slot := n, fanControl := true } }
theorem test_conversion : (atSlot 23).hk.slot = 23 ∧ (atSlot 23).slotDue 23 = true ∧ up.slotDue 7 = false ∧ (nx (.channelConversion 23 { a := 2048 }) (atSlot 23)).hk.slot = 24 ∧
    (nx (.channelConversion 5 { opened := true }) (atSlot 5)).hk.slot = 6 ∧ ((nx (.channelConversion 5 { opened := true }) (atSlot 5)).chan 5).rawStatus = 3 ∧
    ((nx (.channelConversion 12 { a := 1750001 }) (atSlot 12)).chan 12).rawStatus = 1 ∧
    ((nx (.channelConversion 19 { a := 49999 }) (atSlot 19)).chan 19).rawStatus = 2 := by decide +kernel
/-- Channel 12's trip threshold at the lowest value of its type. -/
def hot : State := { atSlot 12 with od := odStore [] 0x280C 2 0x80000000 }
theorem test_trip : hot.power.phase = .ready ∧ hot.hk.slot = 12 ∧ hot.slotDue 12 = true ∧ hot.hk.fanControl = true ∧ hot.hk.left.contains 12 = false ∧ (hot.chan 12).faulty = false ∧
    (convertChan 12 { a := 1000000 }).1 = 0 ∧ hot.tripAt 12 ≤ sext 32 (convertChan 12 { a := 1000000 }).2 := by
  have h : hot.tripAt 12 = -2147483648 := by decide +kernel
  refine ⟨by decide +kernel, by decide +kernel, by decide +kernel, by decide +kernel, by decide +kernel, by decide +kernel, by decide +kernel, ?_⟩
  rw [h]
  dsimp only [sext]
  split <;> omega
theorem test_round_end : (atSlot 24).hk.slot = 24 ∧ (atSlot 24).slotDue 24 = true ∧ beatPeriod 32000000 64000000 = 500 ∧ (nx (.measurementRoundEnd { inPower := 7 }) (atSlot 24)).hk.slot = 0 ∧
    (nx (.measurementRoundEnd { inPower := 7 }) (atSlot 24)).hk.rounds = 57 ∧ (nx (.measurementRoundEnd { inPower := 7 }) (atSlot 24)).hk.inPower = 7 := by decide +kernel
theorem test_idle : up.isReady = true ∧ up.power.pstate = 1 ∧ up.holdsWork = false ∧ (nx .idleEnter up).power.pstate = 2 := by decide +kernel
theorem test_doze : (up.tier 3).doze = false ∧ (∀ u, u < 64 → (up.unit (64 * 3 + u)).idle = true) ∧ up.unitTraffic 3 = false ∧
    ((nx (.privetDozeEnter 3) up).tier 3).doze = true := by decide +kernel
/-- Stack 3's units in Doze, and a write for one of them at the stack port. -/
def dozing : State := { nx (.privetDozeEnter 3) up with
  txns := [{ id := 1, agent := .core 0, kind := .write, dest := ⟨none, controlBase + 0x5000000 + 0x10000 * 192⟩, len := 4, data := ⟨zeros 4, false⟩, stage := .atHome, purpose := .posted }] }
theorem test_doze_exit : (dozing.tier 3).doze = true ∧ dozing.unitTraffic 3 = true ∧ ((nx (.privetDozeExit 3) dozing).tier 3).doze = false := by decide +kernel


/-! ## Kernels (04) -/

theorem test_beat_outside : up.isReady = true ∧ (up.tile 3).kern.inKernel = false ∧ ((nx (.kernelBeat 3 []) up).tile 3).ctl.beatCount = 1 := by decide +kernel
/-- A kernel that waits for its opening command, and one with nothing due. -/
def waits : State := withTile { inK 0 (qc .tswap) with kern := { inKernel := true } }
def idleK : State := withTile { inK 0 (qc .tswap) with eng := [] }
theorem test_beat_held : (waits.tile 0).kern.inKernel = true ∧ (waits.tile 0).holdCauseNow = 1 ∧ (t0 (.kernelBeat 0 []) waits).sched.kbeat = 10 ∧
    (t0 (.kernelBeat 0 []) waits).sched.curHold = 1 := by decide +kernel
/-- The same with a kernel state of its own. -/
def waitsAs (k : Kern) : State := withTile { waits.tile 0 with kern := k }
theorem test_beat_meets : up.burstDue 3 = false ∧ waits.burstDue 0 = false ∧ (waits.tile 0).kern.startBeat = false ∧ (waits.tile 0).kern.pend = 0 := by decide +kernel
theorem test_start_beat : ((waitsAs { inKernel := true, startBeat := true }).tile 0).holdCauseNow = 1 ∧
    (t0 (.kernelBeat 0 []) (waitsAs { inKernel := true, startBeat := true })).sched.curHold = 0 ∧
    (t0 (.kernelBeat 0 []) (waitsAs { inKernel := true, startBeat := true })).kern.startBeat = false := by decide +kernel
theorem test_fault_met : ((waitsAs { inKernel := true, pend := 7 }).tile 0).holdCauseNow ≠ 0 ∧
    (t0 (.kernelBeat 0 []) (waitsAs { inKernel := true, pend := 7 })).kern.fault = 7 ∧ (t0 (.kernelBeat 0 []) (waitsAs { inKernel := true, pend := 7 })).core.halted = true := by decide +kernel
theorem test_beat_closes : (idleK.tile 0).holdCauseNow = 0 ∧ (∀ e : EngId, (idleK.tile 0).issuable e = none) ∧ (t0 (.kernelBeat 0 []) idleK).sched.kbeat = 11 := by
  decide +kernel
/-- A result that lands in beat 11 or at another time. -/
def landing (b : Nat) (l : LandWhat) : State := withTile { inK 0 (qc .tswap) with
  eng := [], lands := [⟨b, 10, l⟩], acc := [(3, 5)], active := { width := 8 }, shadow := { width := 16 }, vreg := [(7, 1#8)] }
def ones : List Byte := List.replicate 512 1#8
theorem test_land_vreg : (∀ e : EngId, ((landing 11 (.vreg 2 0 ones (List.replicate 8 false))).tile 0).dueCmd e = none) ∧ ones.length = 512 ∧
    ((landing 11 (.vreg 2 0 ones (List.replicate 8 false))).tile 0).holdCauseNow = 0 := by decide +kernel
theorem test_land_zero : (t0 (.kernelBeat 0 []) (landing 11 .accZero)).acc = [] ∧ (t0 (.kernelBeat 0 []) (landing 12 .accZero)).acc = [(3, 5)] := by decide +kernel
theorem test_land_swap : (t0 (.kernelBeat 0 []) (landing 11 .swap)).active.width = 16 ∧ (t0 (.kernelBeat 0 []) (landing 11 .swap)).shadow.width = 8 := by decide +kernel
/-- TZERO and two accumulations of one beat, and one of a later. -/
def clash : Work := { t := { sched := { kbeat := 11 }, acc := [(3, 5)]
                             lands := [⟨11, 10, .accZero⟩, ⟨11, 1, .accAdd 0 true [] false⟩, ⟨11, 1, .accAdd 1 true [] false⟩, ⟨12, 1, .accAdd 2 true [] false⟩] } }
theorem test_zero_beats : (∃ l ∈ clash.t.lands.filter (fun l => l.beat == clash.t.sched.kbeat), l.what = .accZero) ∧ clash.t.count cRegLost < 2 ^ 32 ∧
    clash.landRegs.t.acc = [] ∧ clash.landRegs.t.count cRegLost = 2 := by decide +kernel

/-- A core that runs the instruction word `w` at pc 0, with x6 and x7 holding `a` and `v`. -/
def cpu (w a v : Nat) (x : Tile := {}) (c : CoreSt := {}) : State :=
  withTile { x with core := { c with halted := false, imem := ByteMap.write [] 0 (leBytes 4 w), regs := [(6, a), (7, v)] } }
/-- Fields of an instruction word (RISC-V unprivileged manual, base formats). -/
def iw (imm f3 rd op : Nat) : Nat := imm * 2 ^ 20 + 6 * 2 ^ 15 + f3 * 2 ^ 12 + rd * 2 ^ 7 + op
def rw (f7 f3 rd op : Nat) : Nat := f7 * 2 ^ 25 + 7 * 2 ^ 20 + 6 * 2 ^ 15 + f3 * 2 ^ 12 + rd * 2 ^ 7 + op
def lw : Nat := iw 0 2 5 0x03
def sw : Nat := rw 0 2 0 0x23
/-- The core of tile 0 after a command. -/
def k0 (c : Instr) (s : State) : CoreSt := (nx c s).core 0

def bword : BWord := ⟨5 + 2 ^ 32 * 9, true, false, false, 77, 4⟩
theorem test_pop : fetches (cpu lw 0x20004 0 { fifo := [bword] }) 0 (.load 2 5 6 0) 4 ∧ ((cpu lw 0x20004 0).core 0).addr 6 0 = 0x20004 ∧
    (t0 (.bcastFifoPop 0 []) (cpu lw 0x20004 0 { fifo := [bword] })).fifo = [] ∧ (k0 (.bcastFifoPop 0 []) (cpu lw 0x20004 0 { fifo := [bword] })).reg 5 = 9 ∧
    (t0 (.bcastFifoPop 0 []) (cpu lw 0x20004 0 { fifo := [bword] })).kern.inKernel = true := by unfold fetches; decide +kernel
theorem test_pop_more : fetches (cpu lw 0x20004 0 { fifo := [{ bword with start := false }] }) 0 (.load 2 5 6 0) 4 ∧
    (t0 (.bcastFifoPop 0 []) (cpu lw 0x20004 0 { fifo := [{ bword with start := false }] })).kern.inKernel = false := by unfold fetches; decide +kernel
/-- An engaged engine whose opening command has arrived. -/
def opens : State := withTile { kern := { inKernel := true, decl := some ⟨[0], [(0, 0)]⟩ }
                                eng := [(0, { engaged := true, queue := [⟨⟨1, none, .tswap, some ⟨[0], [(0, 0)]⟩⟩, 0, false, [], none⟩] })] }
theorem test_opening : (opens.tile 0).kern.opened = false ∧ (opens.tile 0).kern.decl.isSome = true ∧ (t0 (.openingCommand 0) opens).kern.opened = true ∧
    (t0 (.openingCommand 0) opens).sched.kbeat = 0 := by decide +kernel
/-- A store to the window of the vector engine's queue. -/
def pushes : State := cpu sw 0x21100 0 { kern := { inKernel := true, decl := some ⟨[1], [(1, 0)]⟩ }, eng := [(1, { engaged := true, pushed := 3 })] }
theorem test_push : fetches pushes 0 (.store 2 6 7 0) 4 ∧ pushes.coreAt 0 ((pushes.core 0).addr 6 0) 4 = .queue 1 ∧
    ((t0 (.engineCommandPush 0 1 (some ⟨1, none, .fin, none⟩) false) pushes).engine 1).queue = [⟨⟨1, none, .fin, none⟩, 3, false, [], none⟩] ∧
    (k0 (.engineCommandPush 0 1 (some ⟨1, none, .fin, none⟩) false) pushes).pc = 4 := by unfold fetches; decide +kernel
/-- A command that waits loses its parity, and ends the kernel in the beat in which it would have issued (15 R482: STREAM_UNCORR, 0x01). -/
theorem test_command_parity :
    (t0 (.kernelBeat 0 [.command 0 0]) (due 0 (qc .tswap))).kern.fault = 1 ∧ (nx (.kernelBeat 0 [.command 0 0]) (due 0 (qc .tswap))).totals.parity = 1 := by
  decide +kernel
/-- A GLOCAL whose descriptor, at scratchpad 0x40, has not been read. -/
def needs : State := withTile { inK 2 (qc (.glocal 1 (z 0) (z 0) (.scratch 0x40) false false)) with scratch := [(0x41, 9#8)] }
theorem test_descriptor : nextDesc (.glocal 1 (z 0) (z 0) (.scratch 0x40) false false) [] = some (.scratch 0x40) ∧
    (((t0 (.descriptorArrive 0 2 0) needs).engine 2).queue.map fun q => q.got.map (·.bytes.take 2)) = [[[0#8, 9#8]]] := by decide +kernel

/-- A hold that began longer ago than OD 0x6040.01. -/
def held : State := { waits with tiles := [(0, { waits.tile 0 with sched := { kbeat := 10, held := true, holdCause := 1, curHold := 5, holdSince := 0 } })], ts := 10 ^ 12 }
theorem test_hold_limit : held.holdTooLong 0 = true ∧ (held.tile 0).kern.stopped = false ∧ (t0 (.holdLimitExpire 0) held).kern.pend = 7 := by decide +kernel
/-- A tile whose kernel has nothing left, and its launch. -/
def ending : State := { withTile { kern := { inKernel := true, opened := true, stopped := true, launch := 4, fault := 5, decl := some ⟨[], []⟩, lastPopped := true } } with
  launches := [{ id := 4, by_ := .hostOp 9, part := some 0, kernelId := 1, streamAddr := 0, words := 1, masks := [1], open_ := [0] }]
  ops := [{ id := 9, port := false, fn := 0, queue := 0, part := 0, desc := [], stage := .running }] }
theorem test_kernel_end : (ending.tile 0).mayEnd = true ∧ (t0 (.kernelEnd 0) ending).kern.inKernel = false ∧
    (nx (.kernelEnd 0) ending).notices = [⟨4, 0, 5, false, false, false⟩] := by decide +kernel
def ended : State := nx (.kernelEnd 0) ending
theorem test_kernel_complete : (∀ v ∈ [0], ∃ n ∈ ended.notices, n.launch = 4 ∧ n.tile = v) ∧ (ended.op? 9).map (·.status) = some 0 ∧
    (nx (.kernelComplete 4) ended).launches = [] ∧ ((nx (.kernelComplete 4) ended).op? 9).map (fun o => (o.status, o.fault, o.detail)) = some (1, 5, 0) ∧
    ((nx (.kernelComplete 4) { ended with notices := [⟨4, 0, 0, false, false, false⟩] }).op? 9).map (fun o => (o.status, o.stage == .done)) = some (0, true) := by
  decide +kernel

/-- A release of tile 0 held at the injection port, nothing owed before it. -/
def relHeld : State := { up with txns := [{ id := 1, agent := .engine 0 3, kind := .write, dest := ⟨none, 0x100000⟩, len := 64, data := ⟨zeros 64, false⟩
                                            stage := .held, rel := some 2, sentAt := 5, purpose := .outbound 0 3 }] }
theorem test_release : (relHeld.txns.find? (fun x => x.stage == .held && x.tile? == some 0)).isSome = true ∧ relHeld.owes 0 2 (.op 3 5 0) = false ∧
    ((nx (.releaseInject 0 3) relHeld).txns.map (fun x => x.stage == .held)) = [false] := by decide +kernel
/-- A DIN whose one grain is complete. -/
def inbound : State := withTile { ops := [{ id := 3, eng := 3, cmd := 0, issue := 0, op := .tswap, grains := [⟨0x1000, ⟨List.replicate 64 7#8, false⟩, 0, false⟩] }] }
theorem test_land_own : ((t0 (.inboundGrainLand 0 (.own 3 0)) inbound).scratch.read 0x1000 64) = List.replicate 64 7#8 ∧
    (t0 (.inboundGrainLand 0 (.own 3 0)) inbound).bankUse = [48 + bankOf 64] ∧ topGrain = 32767 := by decide +kernel
/-- A remote write of 4 bytes that has reached tile 0's scratchpad. -/
def remoteW (kind : TxKind) (addr : Nat) (data : List Byte) : State := { up with
  txns := [{ id := 1, agent := .core 5, kind := kind, dest := ⟨none, addr⟩, len := 4, data := ⟨data, false⟩, stage := .atHome, purpose := .posted }] }
theorem test_land_remote : ((remoteW .write 0xC000000044 [1#8, 2#8, 3#8, 4#8]).ready 1 (· == .write)).isSome = true ∧ placeOf 0xC000000044 = .scratch 0 0x44 ∧
    (t0 (.inboundGrainLand 0 (.remote 1)) (remoteW .write 0xC000000044 [1#8, 2#8, 3#8, 4#8])).scratch = [(0x44, 1#8), (0x45, 2#8), (0x46, 3#8), (0x47, 4#8)] ∧
    (nx (.inboundGrainLand 0 (.remote 1)) (remoteW .write 0xC000000044 [1#8, 2#8, 3#8, 4#8])).txns.map (fun y => y.stage == .responding) = [true] := by decide +kernel


/-! ## The control core (03, 09) -/

theorem test_alu : fetches (cpu (iw 7 0 5 0x13) 40 0) 0 (.opImm 0 5 6 7 false) 4 ∧ (k0 (.coreInstruction 0 []) (cpu (iw 7 0 5 0x13) 40 0)).reg 5 = 47 ∧
    fetches (cpu (rw 32 0 5 0x33) 3 5) 0 (.op 0 5 6 7 true) 4 ∧ (k0 (.coreInstruction 0 []) (cpu (rw 32 0 5 0x33) 3 5)).reg 5 = 2 ^ 32 - 2 ∧
    (k0 (.coreInstruction 0 []) (cpu (iw 7 0 0 0x13) 40 0)).reg 0 = 0 := by unfold fetches; decide +kernel
theorem test_upper : fetches (cpu (0x12345 * 4096 + 5 * 128 + 0x37) 0 0) 0 (.lui 5 0x12345000) 4 ∧
    (k0 (.coreInstruction 0 []) (cpu (0x12345 * 4096 + 5 * 128 + 0x37) 0 0)).reg 5 = 0x12345000 ∧
    fetches (cpu (0xFFFFF * 4096 + 5 * 128 + 0x17) 0 0) 0 (.auipc 5 (-4096)) 4 ∧
    (k0 (.coreInstruction 0 []) (cpu (0xFFFFF * 4096 + 5 * 128 + 0x17) 0 0)).reg 5 = 0xFFFFF000 := by unfold fetches; decide +kernel
/-- MULHU of the largest values, DIV by zero and DIV of the most negative number by −1 (RISC-V M extension). -/
theorem test_muldiv : fetches (cpu (rw 1 3 5 0x33) (2 ^ 32 - 1) (2 ^ 32 - 1)) 0 (.mul 3 5 6 7) 4 ∧
    (k0 (.coreInstruction 0 []) (cpu (rw 1 3 5 0x33) (2 ^ 32 - 1) (2 ^ 32 - 1))).reg 5 = 2 ^ 32 - 2 ∧
    (k0 (.coreInstruction 0 []) (cpu (rw 1 4 5 0x33) 17 0)).reg 5 = 2 ^ 32 - 1 ∧
    (k0 (.coreInstruction 0 []) (cpu (rw 1 4 5 0x33) (2 ^ 31) (2 ^ 32 - 1))).reg 5 = 2 ^ 31 := by unfold fetches; decide +kernel
theorem test_jumps : fetches (cpu (4 * 2 ^ 21 + 1 * 128 + 0x6F) 0 0) 0 (.jal 1 8) 4 ∧ (k0 (.coreInstruction 0 []) (cpu (4 * 2 ^ 21 + 128 + 0x6F) 0 0)).pc = 8 ∧
    (k0 (.coreInstruction 0 []) (cpu (4 * 2 ^ 21 + 128 + 0x6F) 0 0)).reg 1 = 4 ∧ fetches (cpu (iw 5 0 1 0x67) 0x100 0) 0 (.jalr 1 6 5) 4 ∧
    (k0 (.coreInstruction 0 []) (cpu (iw 5 0 1 0x67) 0x100 0)).pc = 0x104 := by unfold fetches; decide +kernel
theorem test_branch : fetches (cpu (rw 0 4 8 0x63) (2 ^ 32 - 1) 0) 0 (.branch 4 6 7 8) 4 ∧
    (k0 (.coreInstruction 0 []) (cpu (rw 0 4 8 0x63) (2 ^ 32 - 1) 0)).pc = 8 ∧ (k0 (.coreInstruction 0 []) (cpu (rw 0 4 8 0x63) 0 0)).pc = 4 := by
  unfold fetches; decide +kernel
theorem test_mret : fetches (cpu 0x30200073 0 0 {} { csrs := [(0x300, 0x80), (0x341, 0x40)] }) 0 .mret 4 ∧
    (k0 (.coreInstruction 0 []) (cpu 0x30200073 0 0 {} { csrs := [(0x300, 0x80), (0x341, 0x40)] })).pc = 0x40 ∧
    (k0 (.coreInstruction 0 []) (cpu 0x30200073 0 0 {} { csrs := [(0x300, 0x80), (0x341, 0x40)] })).csr 0x300 = 0x88 := by unfold fetches; decide +kernel
/-- A compressed instruction, C.ADDI x5, 1, is two bytes long. -/
theorem test_compressed : fetches (cpu 0x0285 0 0) 0 (.opImm 0 5 5 1 false) 2 ∧ (k0 (.coreInstruction 0 []) (cpu 0x0285 0 0)).pc = 2 := by
  unfold fetches; decide +kernel

theorem test_load : fetches (cpu (iw 0 0 5 0x03) 0x10003 0) 0 (.load 0 5 6 0) 4 ∧ ((cpu lw 0x10003 0).core 0).addr 6 0 = 0x10003 ∧
    (k0 (.coreLoad 0 []) (cpu (iw 0 0 5 0x03) 0x10003 0 {} { dmem := [(3, 0x80#8)] })).reg 5 = 2 ^ 32 - 128 ∧
    (k0 (.coreLoad 0 []) (cpu (iw 0 4 5 0x03) 0x10003 0 {} { dmem := [(3, 0x80#8)] })).reg 5 = 128 := by unfold fetches; decide +kernel
theorem test_load_fifo : fetches (cpu lw 0x20000 0 { fifo := [bword] }) 0 (.load 2 5 6 0) 4 ∧ ((cpu lw 0x20000 0).core 0).addr 6 0 = 0x20000 ∧
    (k0 (.coreLoad 0 []) (cpu lw 0x20000 0 { fifo := [bword] })).reg 5 = 5 ∧ (t0 (.coreLoad 0 []) (cpu lw 0x20000 0 { fifo := [bword] })).fifo = [bword] := by
  unfold fetches; decide +kernel
theorem test_store : fetches (cpu sw 0x1FFFC 0xABCD) 0 (.store 2 6 7 0) 4 ∧ (k0 (.coreStore 0 []) (cpu sw 0x1FFFC 0xABCD)).dmem = [(0xFFFC, 0xCD#8), (0xFFFD, 0xAB#8)] := by
  unfold fetches; decide +kernel
theorem test_store_die : fetches (cpu sw 0x80000040 7 { ctl := { winBase := 3 } }) 0 (.store 2 6 7 0) 4 ∧
    (nx (.coreStore 0 []) (cpu sw 0x80000040 7 { ctl := { winBase := 3 } })).txns.map (fun q => (q.dest.addr, q.data.bytes, q.stage == .queued)) =
      [(3 * 2 ^ 31 + 0x40, leBytes 4 7, true)] := by unfold fetches; decide +kernel
def amoAdd : Nat := rw 0 2 5 0x2F
def lrw : Nat := 2 * 2 ^ 27 + 6 * 2 ^ 15 + 2 * 2 ^ 12 + 5 * 128 + 0x2F
def scw : Nat := 3 * 2 ^ 27 + rw 0 2 5 0x2F
theorem test_amo : fetches (cpu amoAdd 0x10004 3) 0 (.amo 0 5 6 7 false false) 4 ∧ (k0 (.coreAmo 0 []) (cpu amoAdd 0x10004 3 {} { dmem := [(4, 0xFF#8)] })).reg 5 = 255 ∧
    (k0 (.coreAmo 0 []) (cpu amoAdd 0x10004 3 {} { dmem := [(4, 0xFF#8)] })).dmem = [(4, 2#8), (5, 1#8)] := by unfold fetches; decide +kernel
theorem test_lr : fetches (cpu lrw 0x10004 0) 0 (.lr 5 6 false false) 4 ∧ (k0 (.coreLr 0 []) (cpu lrw 0x10004 0)).resv = some 4 := by unfold fetches; decide +kernel
theorem test_sc : fetches (cpu scw 0x10004 9 {} { resv := some 4 }) 0 (.sc 5 6 7 false false) 4 ∧
    (k0 (.coreSc 0 []) (cpu scw 0x10004 9 {} { resv := some 4 })).dmem = [(4, 9#8)] ∧ (k0 (.coreSc 0 []) (cpu scw 0x10004 9 {} { resv := some 4 })).reg 5 = 0 ∧
    (k0 (.coreSc 0 []) (cpu scw 0x10004 9 {} { resv := some 8 })).dmem = [] ∧ (k0 (.coreSc 0 []) (cpu scw 0x10004 9 {} { resv := some 8 })).reg 5 = 1 := by
  unfold fetches; decide +kernel
def line : Option CLine := some ⟨0, [], false, 0⟩
theorem test_fence : fetches (cpu 0x0FF0000F 0 0 { cache := [(0, line)] }) 0 (.fence 15 15) 4 ∧ (cpu 0x0FF0000F 0 0).coreOwes 0 2 = false ∧
    (t0 (.coreFence 0 []) (cpu 0x0FF0000F 0 0 { cache := [(0, line)] })).cache = [] ∧
    (t0 (.coreFence 0 []) (cpu 0x0FF0000F 0 0 { cache := [(0, line)] } { syncScope := 1 })).cache = [(0, line)] := by unfold fetches; decide +kernel
/-- A store of core 0 on its way holds its fence. -/
def owing : State := { cpu 0x0FF0000F 0 0 with txns := [{ id := 1, agent := .core 0, kind := .write, dest := ⟨none, 0x100⟩, len := 4, purpose := .store 0 }] }
theorem test_fence_waits : fetches owing 0 (.fence 15 15) 4 ∧ owing.coreOwes 0 2 = true ∧ (k0 (.coreFence 0 []) owing).pc = 0 := by unfold fetches; decide +kernel
theorem test_fences : fetches (cpu 0x8330000F 0 0) 0 .fenceTso 4 ∧ (k0 (.fenceTso 0 []) (cpu 0x8330000F 0 0)).pc = 4 ∧ fetches (cpu 0x0000100F 0 0) 0 .fenceI 4 ∧
    (k0 (.fenceI 0 []) (cpu 0x0000100F 0 0)).pc = 4 := by unfold fetches; decide +kernel
theorem test_wfi : fetches (cpu 0x10500073 0 0) 0 .wfi 4 ∧ (k0 (.wfi 0 []) (cpu 0x10500073 0 0)).wfi = true := by unfold fetches; decide +kernel
def scopeW : Nat := 0x7C0 * 2 ^ 20 + 6 * 2 ^ 15 + 1 * 2 ^ 12 + 5 * 128 + 0x73
theorem test_syncscope : fetches (cpu scopeW 4 0) 0 (.csr 1 5 6 0x7C0 false) 4 ∧ (k0 (.syncscopeWrite 0 []) (cpu scopeW 4 0)).syncScope = 4 ∧
    (k0 (.syncscopeWrite 0 []) (cpu scopeW 5 0)).syncScope = 2 ∧ (k0 (.syncscopeWrite 0 []) (cpu scopeW 4 0)).reg 5 = 2 := by unfold fetches; decide +kernel
theorem test_trap_load : fetches (cpu lw 0x10001 0 {} { csrs := [(0x300, 8), (0x305, 0x100)] }) 0 (.load 2 5 6 0) 4 ∧
    (k0 (.coreLoad 0 []) (cpu lw 0x10001 0 {} { csrs := [(0x300, 8), (0x305, 0x100)] })).pc = 0x100 ∧
    (k0 (.coreLoad 0 []) (cpu lw 0x10001 0 {} { csrs := [(0x300, 8), (0x305, 0x100)] })).csr 0x342 = 4 ∧
    (k0 (.coreLoad 0 []) (cpu lw 0x10001 0 {} { csrs := [(0x300, 8), (0x305, 0x100)] })).csr 0x300 = 0x80 := by unfold fetches; decide +kernel
theorem test_trap_store : fetches (cpu sw 0x40000 0) 0 (.store 2 6 7 0) 4 ∧ (cpu sw 0x40000 0).coreAt 0 0x40000 4 = .none_ ∧
    (k0 (.coreStore 0 []) (cpu sw 0x40000 0)).csr 0x342 = 7 ∧ (k0 (.coreStore 0 []) (cpu sw 0x40000 0)).halted = true := by unfold fetches; decide +kernel
theorem test_ecall : fetches (cpu 0x73 0 0 {} { csrs := [(0x305, 0x100)] }) 0 .ecall 4 ∧
    (k0 (.coreInstruction 0 []) (cpu 0x73 0 0 {} { csrs := [(0x305, 0x100)] })).csr 0x342 = 11 := by unfold fetches; decide +kernel
/-- The broadcast FIFO's interrupt, enabled. -/
def irq : State := cpu 0x10500073 0 0 { fifo := [bword], ctl := { irqEn := 7 } } { csrs := [(0x300, 8), (0x304, 2048), (0x305, 0x100)], wfi := true }
theorem test_interrupt : (irq.tile 0).irqWakes = true ∧ (irq.core 0).halted = false ∧ (k0 (.coreInterrupt 0) irq).csr 0x341 = 4 ∧
    (k0 (.coreInterrupt 0) irq).csr 0x342 = 0x8000000B ∧ (k0 (.coreInterrupt 0) irq).pc = 0x100 := by decide +kernel
/-- WFI passes with the interrupt pending. -/
theorem test_wfi_passes : fetches { irq with tiles := [(0, { irq.tile 0 with core := { irq.core 0 with wfi := false } })] } 0 .wfi 4 ∧
    (k0 (.wfi 0 []) { irq with tiles := [(0, { irq.tile 0 with core := { irq.core 0 with wfi := false } })] }).pc = 4 := by unfold fetches; decide +kernel

theorem test_core_run : up.portUp false = true ∧ up.stew.port = false ∧ (up.core 9).halted = true ∧ ((nx (.coreRun false 9) up).core 9).halted = false ∧
    ((nx (.coreRun true 9) up).core 9).halted = true ∧ SMap.get 0 (nx (.coreRun true 9) up).modCnt (odKey 0x4200 2) = 1 := by decide +kernel
theorem test_core_halt : (k0 (.coreHalt false 0) (cpu lw 0 0)).halted = true ∧ (t0 (.cacheInv false 0) (withTile { cache := [(0, line)] })).cache = [] ∧
    (t0 (.cacheInv true 0) (withTile { cache := [(0, line)] })).cache = [(0, line)] := by decide +kernel
theorem test_cnt_clr : (t0 (.tileCntClr false 0) (withTile { ctl := { cnt := [(0x3C, 3), (0x40, 1), (0x68, 2), (0x110, 4)] } })).ctl.cnt.map (·.1) = [0x3C, 0x110] := by
  decide +kernel


/-! ## Registers, mesh, launches (00, 03, 07, 10) -/

/-- `up` with one access in flight. -/
def fly (q : Txn) : State := { up with txns := [q] }
def acc (kind : TxKind) (addr len : Nat) (stage : Stage) : Txn :=
  { id := 1, agent := .core 5, kind := kind, dest := ⟨none, addr⟩, len := len, data := if kind == .read then {} else ⟨List.replicate len 7#8, false⟩, stage := stage, purpose := .posted }

theorem test_reg_block : up.reach false 0 = true ∧ ((nx (.registerWrite (.block false 0 0x10) 4 0xFFFF) up).fn false 0).eventEn = 127 ∧
    ((nx (.registerWrite (.block false 0 8) 4 5) (up.setFn false 0 { event := 0x27 })).fn false 0).event = 0x22 := by decide +kernel
theorem test_reg_mbox : ((nx (.rcRegisterRead (.block false 0 0x408) 4) (up.setFn false 0 { mbox := { overrun := true, status := 3 } })).fn false 0).mbox.overrun = false ∧
    (nx (.rcRegisterRead (.block false 0 0x408) 4) (up.setFn false 0 { mbox := { overrun := true, status := 3 } })).outbox = [.completion false 0 (leBytes 4 0x302) false] := by
  decide +kernel
theorem test_reg_misaligned : aligned 2 4 = false ∧ aligned 0 3 = false ∧ nx (.registerWrite (.window false 2) 4 1) up = up ∧
    (nx (.rcRegisterRead (.window false 4) 8) up).outbox = [.completion false 1 [] false] ∧ (nx (.rcRegisterRead (.window false 0) 3) up).outbox = [.completion false 1 [] false] ∧
    (nx (.rcRegisterRead (.window false 0x7000000) 4) up).outbox = [.completion false 1 [] false] ∧
    ((nx (.rcRegisterRead (.window false 0x7000000) 4) up).fn false 0).aer = 2 ^ 15 := by decide +kernel
def faulty : State := withTile { ctl := { fault := 15, cnt := [(0x64, 1), (0x110, 3), (0x160, 4)] } }
theorem test_reg_tileFault : (t0 (.registerWrite (.window false 0x18) 4 5) faulty).ctl.fault = 10 ∧ (t0 (.registerWrite (.window true 0x18) 4 5) faulty).ctl.fault = 15 ∧
    true ≠ faulty.stew.port := by decide +kernel
theorem test_reg_rc : (t0 (.rcRegisterRead (.window false 0x110) 4) faulty).ctl.cnt = [(0x64, 1), (0x160, 4)] ∧
    (nx (.rcRegisterRead (.window false 0x110) 4) faulty).outbox = [.completion false 0 (leBytes 4 3) false] := by decide +kernel
def dieReg (kind : TxKind) (off : Nat) : State := { faulty with txns := [{ acc kind (controlBase + off) 4 .atHome with data := if kind == .read then {} else ⟨leBytes 4 5, false⟩ }] }
theorem test_reg_die : ((dieReg .write 0x18).ready 1 (· == .write)).isSome = true ∧ placeOf (controlBase + 0x18) = .control 0x18 ∧
    (t0 (.registerWrite (.die 1) 4 5) (dieReg .write 0x18)).ctl.fault = 10 ∧ ((dieReg .read 0x160).ready 1 (· == .read)).isSome = true ∧
    (t0 (.rcRegisterRead (.die 1) 4) (dieReg .read 0x160)).count 0x160 = 0 ∧
    (nx (.rcRegisterRead (.die 1) 4) (dieReg .read 0x160)).txns.map (·.data.bytes) = [leBytes 4 4] := by decide +kernel
/-- NumVFs 99 stands in the capability. -/
def vfs : State := nx (.registerWrite (.config false 0 0x150) 4 99) up
theorem test_reg_vfs : (up.port false).vfEnable = false ∧ (vfs.port false).vfNum = 99 ∧ (vfs.port false).numVfs = 0 ∧
    ((nx (.registerWrite (.config false 0 0x148) 4 1) vfs).port false).numVfs = 15 ∧
    (nx (.rcRegisterRead (.config false 0 0x150) 4) vfs).outbox = [.completion false 0 (leBytes 4 99) false] := by decide +kernel
theorem test_reg_config : up.fnUp false 0 = true ∧ (nx (.rcRegisterRead (.config false 0 0) 4) up).outbox = [.completion false 0 [0x5B, 0x1F, 0x12, 0x88] false] ∧
    (nx (.rcRegisterRead (.config false 0 8) 4) up).outbox = [.completion false 0 [0xB0, 0x00, 0x00, 0x12] false] ∧
    ((nx (.registerWrite (.config false 0 0x98) 4 0xFFF6) up).fn false 0).devCtl2 = 0x1016 ∧ cplTimeout 0x16 = none ∧ cplTimeout 6 = some 65000000 ∧
    ((nx (.registerWrite (.config false 0 0x44) 4 3) up).fn false 0).d3hot = true := by decide +kernel

theorem test_inject : (fly (acc .read 0x100 4 .queued)).injectable (acc .read 0x100 4 .queued) = true ∧ (fly (acc .read 0x100 4 .queued)).unmapped (acc .read 0x100 4 .queued) = false ∧
    (fly (acc .read 0x100 4 .queued)).inTurn (.core 5) [1] = true ∧
    (nx (.meshPacketInject [1]) (fly (acc .read 0x100 4 .queued))).txns = [{ acc .read 0x100 4 .flying with pkt := 2 }] := by decide +kernel
theorem test_inject_unmapped : (fly (acc .read 0x8C00000000 4 .queued)).unmapped (acc .read 0x8C00000000 4 .queued) = true ∧
    (nx (.meshPacketInject [1]) (fly (acc .read 0x8C00000000 4 .queued))).txns.map (fun q => (q.status, q.stage == .responding, q.data.poison)) = [(1, true, true)] := by decide +kernel
theorem test_arrive : aheadOf [acc .write 0x100 4 .flying] (acc .write 0x100 4 .flying) = false ∧
    (nx (.meshPacketArrive 1 none) (fly (acc .write 0x100 4 .flying))).txns = [acc .write 0x100 4 .atHome] := by decide +kernel
theorem test_arrive_parity :
    (nx (.meshPacketArrive 1 (some (.payload 1))) (fly (acc .write 0x100 4 .flying))).txns.map (fun q => (q.stage == .atHome, q.data.poison)) = [(true, true)] ∧
    (nx (.meshPacketArrive 1 (some (.payload 1))) (fly (acc .write 0x100 4 .flying))).totals.parity = 1 ∧
    (nx (.meshPacketArrive 1 (some (.payload 1))) (fly (acc .read 0x100 4 .flying))).totals.parity = 0 := by decide +kernel
theorem test_arrive_meets : (fly (acc .write 0x100 4 .flying)).copyPoor (acc .write 0x100 4 .flying) = false := by decide +kernel
theorem test_arrive_lost : up.log.intake.length < 64 ∧ up.power.isolated = false ∧ onPath (acc .write 0x100 4 .flying).route.2.1 (acc .write 0x100 4 .flying).route.2.2 (3, 0) = true ∧
    (nx (.meshPacketArrive 1 (some (.header 3))) (fly (acc .write 0x100 4 .flying))).txns = [] ∧
    (nx (.meshPacketArrive 1 (some (.header 3))) (fly (acc .write 0x100 4 .flying))).log.intake.map (fun e => (e.code, e.source, e.args)) = [(0x33, 3, [3, 1])] ∧
    onPath (acc .write 0x100 4 .flying).route.2.1 (acc .write 0x100 4 .flying).route.2.2 (15, 7) = false ∧
    (nx (.meshPacketArrive 1 (some (.header 127))) (fly (acc .write 0x100 4 .flying))).txns = [acc .write 0x100 4 .flying] := by decide +kernel
/-- A descriptor read for a command that waits for it. -/
def descFly : State := { withTile { inK 2 (qc (.glocal 1 (z 0) (z 0) (.scratch 0x40) false false)) with kern := { (inK 2 (qc .fin)).kern with opened := true } } with
  txns := [{ acc .read 0x100 64 .responding with purpose := .desc 0 2 0 }] }
theorem test_arrive_desc : (descFly.tile 0).awaits 2 0 = true ∧ (nx (.meshPacketArrive 1 none) descFly).txns.map (fun q => q.stage == .returned) = [true] := by
  decide +kernel
def acking : State := { withTile { ops := [{ id := 3, eng := 3, cmd := 0, issue := 0, op := .tswap, acks := 2, left := 1 }] } with
  txns := [{ acc .write 0x100 64 .responding with agent := .engine 0 3, purpose := .outbound 0 3 }] }
theorem test_arrive_ack : ((acking.tile 0).ops.find? (·.id == 3)).isSome = true ∧ (t0 (.meshPacketArrive 1 none) acking).ops.map (·.acks) = [1] ∧
    (nx (.meshPacketArrive 1 none) acking).txns = [] := by decide +kernel
def filling : State := fly { acc .read 0x1040 64 .returned with agent := .engine 0 2, fill := true, data := ⟨List.replicate 64 3#8, false⟩ }
theorem test_cache_fill : ({ acc .read 0x1040 64 .returned with agent := .engine 0 2 } : Txn).tile? = some 0 ∧
    ((t0 (.cacheFill 0 1) filling).cacheFind 0x41).map (fun x => x.2.data) = some (List.replicate 64 3#8) ∧ (nx (.cacheFill 0 1) filling).txns = [] := by decide +kernel
def portRead : State := { withTile { scratch := [(0x44, 1#8), (0x45, 2#8)] } with txns := [acc .read 0xC000000044 4 .atHome] }
theorem test_remote_port : (portRead.ready 1 (fun _ => true)).isSome = true ∧ (portRead.tile 0).slotFree (bankOf 1) false = true ∧ (portRead.tile 0).words = [] ∧
    (nx (.remotePortGrant 0 1) portRead).txns.map (fun q => q.data.bytes) = [[1#8, 2#8, 0#8, 0#8]] ∧ (t0 (.remotePortGrant 0 1) portRead).remoteUse = some 1 := by decide +kernel
def arbR (r c : Nat) : ArbIn := { req := r, cls := c }
/-- Another has been granted N − 1 times in a row while requester 1 waited; then the starvation grant goes to 1. -/
def starving : State := { up with arbs := [(275, { since := up.arbN 275 - 1, reqs := [(1, { waiting := 5, eligible := 5, requesting := true })] })] }
theorem test_arbiter : ([arbR 1 0, arbR 4 2].map (·.req)).Nodup ∧ arbHas 275 1 = true ∧ arbHas 275 4 = true ∧ arbHas 3 7 = false ∧
    ((nx (.arbiterGrant 275 [arbR 1 0, arbR 4 2]) up).arb 275).last = 4 ∧
    (((nx (.arbiterGrant 275 [arbR 1 0, arbR 4 2]) up).arb 275).req 1).waiting = 1 ∧ ((nx (.arbiterGrant 275 [arbR 1 0, arbR 4 2]) starving).arb 275).last = 1 := by decide +kernel
theorem test_refill : up.regOn 1 0 = false ∧ (nx (.bucketRefill 1) up).tokens 1 0 = up.tokens 1 0 ∧
    (nx (.bucketRefill 1) { up with od := odStore (odStore [] 0x5201 1 1) 0x5201 2 1000, buckets := [(64, 5)] }).tokens 1 0 = 1005 := by decide +kernel
def launchIn : State := { up with launchPkts := [⟨4, 2, 3, 77, 0x1000, 2, [(5, false), (6, false)]⟩] }
theorem test_launch_packet : (launchIn.launchPkts.find? (fun x => x.launch == 4 && x.hedge == 2)).isSome = true ∧ (launchIn.hedge 2).streams = [] ∧
    ((nx (.launchPacket 4 2) launchIn).hedge 2).streams.map (fun x => (x.launch, x.mask, x.held)) = [(4, 3, [(0, 5, false), (1, 6, false)])] := by decide +kernel
def strm (l : Nat) : Stream := ⟨l, 3, 77, 0x1000, 40, [(0, 5, false)], 0, [24], 32⟩
def full4 : State := { launchIn with hedges := [(2, { streams := [strm 0, strm 1, strm 2, strm 3] })] }
theorem test_launch_waits : (full4.hedge 2).streams.length = 4 ∧ ((nx (.launchPacket 4 2) full4).hedge 2).waiting.map (·.launch) = [4] := by decide +kernel
def fetched : State := { up with hedges := [(2, { streams := [strm 9] })], txns := [{ acc .read 0x1000 64 .returned with data := ⟨leBytes 8 7 ++ zeros 56, false⟩, purpose := .stream 2 9 24 }] }
theorem test_stream_fetch : ((fetched.hedge 2).streams.find? (·.launch == 9)).isSome = true ∧
    ((nx (.streamFetchReturn 1 []) fetched).hedge 2).streams.map (fun x => (x.fetching, x.held.length, x.held.getD 1 (0, 0, true))) = [([], 9, (24, 7, false))] := by decide +kernel
def casting (n : Nat) : State := { up with
  hedges := [(2, { streams := [{ strm 9 with words := n }] })], launches := [⟨9, .laurel, none, 77, 0x1000, n, [0, 0, 3], [tileOf 2 0, tileOf 2 1]⟩]
  tiles := [(tileOf 2 0, { core := { halted := false } }), (tileOf 2 1, { core := { halted := false } })] }
theorem test_broadcast : (∀ i, i < 16 → Nat.testBit 3 i = true → (casting 2).endedIn 9 (tileOf 2 i) = false ∧ ((casting 2).tile (tileOf 2 i)).fifo.length < 32 ∧
      ((casting 2).tile (tileOf 2 i)).core.halted = false) ∧
    ((nx (.broadcastWord 2 9 []) (casting 2)).tile (tileOf 2 1)).fifo = [⟨5, true, false, false, 77, 9⟩] ∧
    ((nx (.broadcastWord 2 9 []) (casting 2)).hedge 2).streams.map (·.next) = [1] ∧ ((nx (.broadcastWord 2 9 []) (casting 1)).hedge 2).streams = [] ∧
    ((nx (.broadcastWord 2 9 []) (casting 1)).tile (tileOf 2 0)).fifo = [⟨5, true, true, false, 77, 9⟩] := by decide +kernel

/-! ## Memory (07, 08, 09) -/

theorem test_home_read : placeOf 0x1000000044 = .tier 1 0x44 ∧ soundGrain { fly (acc .read 0x1000000044 4 .atHome) with tiers := [(1, { mem := [(0x44, 9#8)] })] } 1 1 ∧
    (nx (.homeRead 1 {}) { fly (acc .read 0x1000000044 4 .atHome) with tiers := [(1, { mem := [(0x44, 9#8)] })] }).txns.map (fun q => (q.data.bytes, q.stage == .responding)) =
      [([9#8, 0#8, 0#8, 0#8], true)] := by unfold soundGrain; decide +kernel
theorem test_home_meets : (fly (acc .read 0x1000000044 4 .atHome)).served? (acc .read 0x1000000044 4 .atHome) 1 0x44 false = true ∧
    (fly (acc .read 0x1000000044 4 .atHome)).served? (acc (.combine .addI32) 0x1000000044 4 .atHome) 1 0x44 true = true ∧
    portRead.portTakes 0 (acc .read 0xC000000044 4 .atHome) (bankOf 1) = true ∧ needs.portFree 0 (bankOf 1) false = true := by decide +kernel
theorem test_home_write : ((nx (.homeWrite 1 {}) (fly (acc .write 0x1000000044 4 .atHome))).tier 1).mem = [(0x44, 7#8), (0x45, 7#8), (0x46, 7#8), (0x47, 7#8)] ∧
    ((nx (.homeWrite 1 {}) (fly { acc .write 0x1000000044 4 .atHome with data := ⟨zeros 4, true⟩ })).tier 1).word 1 2 = { mode := .poison } ∧
    ((nx (.homeWrite 1 {}) (fly { acc .write 0x1000000044 4 .atHome with data := ⟨zeros 4, true⟩ })).tier 1).word 1 3 = { mode := .poison } := by decide +kernel
theorem test_home_atomic : ((fly (acc (.combine .addI32) 0x1000000044 4 .atHome)).ready 1 (fun x => match x with | .combine _ => true | _ => false)).isSome = true ∧
    ((nx (.homeAtomic 1 {}) { fly (acc (.combine .addI32) 0x1000000044 4 .atHome) with tiers := [(1, { mem := [(0x44, 0xFF#8)] })] }).tier 1).mem.map (·.2) = [6#8, 8#8, 7#8, 7#8] ∧
    (nx (.homeAtomic 1 {}) { fly (acc (.combine .addI32) 0x1000000044 4 .atHome) with tiers := [(1, { mem := [(0x44, 0xFF#8)] })] }).txns.map (·.data.bytes) =
      [[0xFF#8, 0#8, 0#8, 0#8]] := by decide +kernel
theorem test_scrub : (up.tier 1).mode 1 0 = .sealed ∧ (up.tier 1).page 0 = 0 ∧ ((nx (.scrubGrain 1 {}) up).tier 1).scrubAt = 1 ∧
    symbolsHit ((({ words := [(0, { flips := 6 })] } : Tier).word 1 0).flips) = 1 ∧ ((nx (.scrubGrain 1 {}) { up with tiers := [(1, { words := [(0, { flips := 6 })] })] }).tier 1).words = [] := by
  decide +kernel
theorem test_scrub_skips : (up.tier 8).scrubDue (up.odv 0x9200 2) up.ts = true ∧ (up.tier 8).mode 8 0 = .plain ∧ up.atomicWaits 8 (pchOf 0) = false ∧
    ((nx (.scrubGrain 8 {}) up).tier 8).scrubAt = 32768 := by decide +kernel
/-- Unit 3 runs a command; its bank 5 has put off `n` refreshes. -/
def running (n : Nat) (r : URun) : State := { up with units := [(3, { running := some r })], tiers := [(0, { refresh := if n = 0 then [] else [(64 * 3 + 5, n)] })] }
def aRun : URun := { cmd := ⟨zeros 64, false⟩, startTs := 0 }
theorem test_refresh : (up.unit 3).running = none ∧ aRun.computed = false ∧ SMap.get 0 ((nx (.refresh 0 3 0 5) (running 3 { aRun with next := some 5 })).tier 0).refresh (64 * 3 + 5) = 4 ∧
    (((nx (.refresh 0 3 0 5) (running 4 { aRun with next := some 5 })).unit 3).running.map (·.paused)) = some true ∧ ((nx (.refresh 0 3 0 5) (running 4 aRun)).tier 0).refresh = [] ∧
    ((nx (.refresh 0 3 0 5) { up with tiers := [(0, { refresh := [(64 * 3 + 5, 2)] })] }).tier 0).refresh = [] := by decide +kernel
theorem test_pause_end : ((nx (.pauseEnd 3 9) (running 0 { aRun with paused := true, pausedAt := 1000 })).unit 3).running.map (fun r => (r.paused, r.pauseBeats)) = some (false, 9) ∧
    ((nx (.pauseEnd 3 9) (running 0 { aRun with paused := true, pausedAt := 1000 })).unit 3).pauseLongest = 9 := by decide +kernel
/-- A RESEAL under way, at its first grain, and a zero fill. -/
def converting (fill : Bool) : State := { up with tiers := [(1, { entries := [(0, { valid := true, converting := true, base := 0, limit := 1 })], mem := [(3, 8#8)]
                                                                  words := [(0, { mode := .open }), (1, { mode := .open })]
                                                                  conv := some { entry := 0, page := 0, toSealed := true, fill := fill } })] }
theorem test_conversion_grain : ((converting false).tier 1).conv.isSome = true ∧ ((converting false).tier 1).page 0 = 0 ∧
    ((nx (.regionConversionGrain 1 {}) (converting false)).tier 1).words = [] ∧ ((nx (.regionConversionGrain 1 {}) (converting false)).tier 1).mem = [(3, 8#8)] ∧
    ((nx (.regionConversionGrain 1 {}) (converting true)).tier 1).mem = [] ∧ (((nx (.regionConversionGrain 1 {}) (converting true)).tier 1).conv.map (·.grain)) = some 1 := by decide +kernel
def openAt (e b l : Nat) : State := { up with tiers := [(1, { entries := [(e, { valid := true, base := b, limit := l })] })] }
def sealedAt (e b l : Nat) : State := { up with tiers := [(1, { entries := [(e, { valid := true, isSealed := true, base := b, limit := l })] })] }
theorem test_define : ((nx (.defineRegion false 1 31 0 5) up).tier 1).pending = some ⟨1, 31, 0, 5⟩ ∧ ((nx (.defineRegion false 1 31 6 5) up).tier 1).result = 4 ∧
    ((nx (.defineRegion false 1 31 0 (tierPages 1)) up).tier 1).result = 4 ∧ ((nx (.defineRegion false 1 31 0 5) (openAt 31 8 9)).tier 1).result = 3 ∧
    ((nx (.defineRegion true 1 31 0 5) up).tier 1).result = 6 ∧ ((nx (.defineRegion false 1 30 0 5) (openAt 31 6 9)).tier 1).result = 0 := by decide +kernel
theorem test_region_moves : ((nx (.removeRegion false 1 2 0 0) (sealedAt 2 0 3)).tier 1).pending.isSome = true ∧ ((nx (.removeRegion false 1 2 0 0) (openAt 2 0 3)).tier 1).result = 3 ∧
    ((nx (.resealRegion false 1 2 0 0) (openAt 2 0 3)).tier 1).pending.isSome = true ∧ ((nx (.resealRegion false 1 2 0 0) (sealedAt 2 0 3)).tier 1).result = 3 ∧
    ((nx (.unsealRegion false 1 2 0 0) (sealedAt 2 0 3)).tier 1).pending.isSome = true ∧ ((nx (.unsealRegion false 8 2 0 0) up).tier 8).result = 7 ∧
    ((nx (.resealRegion false 8 2 0 0) up).tier 8).result = 7 ∧ ((nx (.removeRegion false 1 2 0 0) (nx (.defineRegion false 1 2 0 5) up)).tier 1).result = 1 := by decide +kernel
def pageSt (n : Nat) : State := { up with tiers := [(1, { pages := if n = 0 then [] else [(4, n)] })] }
theorem test_pages : ((nx (.blightPage false 1 4) (pageSt 0)).tier 1).page 4 = 1 ∧ ((nx (.blightPage false 1 4) (pageSt 2)).tier 1).pageResult = 1 ∧
    ((nx (.restorePage false 1 4) (pageSt 2)).tier 1).page 4 = 3 ∧ ((nx (.restorePage false 1 4) (pageSt 3)).tier 1).pageResult = 1 ∧
    ((nx (.returnPage false 1 4) (pageSt 3)).tier 1).page 4 = 0 ∧ ((nx (.returnPage false 1 4) (pageSt 1)).tier 1).pageResult = 1 ∧
    ((nx (.returnPage true 1 4) (pageSt 3)).tier 1).pageResult = 3 ∧ ((nx (.blightPage false 1 (tierPages 1)) (pageSt 0)).tier 1).pageResult = 2 := by decide +kernel


/-! ## Privet units (08) -/

/-- A command grain of primitive `p` with the first parameter word `w`. -/
def grainOf (p w : Nat) : List Byte := leBytes 8 (p + 2 ^ 32 * 6) ++ zeros 8 ++ leBytes 8 w ++ zeros 40
def cmdAddr (u : Nat) : Nat := controlBase + 0x04000000 + 0x100 * u + 0x40
/-- A command grain for unit 3 at its stack port, with the unit as given. -/
def cmdIn (x : Machine.PUnit) : State := { up with units := [(3, x)], txns := [{ acc .write (cmdAddr 3) 64 .atHome with data := ⟨grainOf 1 0, false⟩ }] }
def ucmd (p w : Nat) : UCmd := ⟨grainOf p w, false⟩
theorem test_cmd_accept : ((cmdIn {}).grainAt 1).map (·.2) = some 3 ∧ (((nx (.privetCommandAccept 1 false) (cmdIn {})).unit 3).running.map (·.cmd.tag)) = some 6 ∧
    (nx (.privetCommandAccept 1 false) (cmdIn {})).txns.map (fun y => y.stage == .responding) = [true] := by decide +kernel
theorem test_cmd_waits : 8 ≤ (List.replicate 8 (ucmd 0 0)).length ∧ ((cmdIn { load := true }).grainAt 1).isSome = true ∧
    ((nx (.privetCommandAccept 1 false) (cmdIn { queue := List.replicate 8 (ucmd 0 0), running := some aRun })).unit 3).queue.length = 8 ∧
    ((nx (.privetCommandAccept 1 false) (cmdIn { running := some aRun })).unit 3).queue.length = 1 := by decide +kernel
def doneRun (st : Nat) : URun := { aRun with startTs := up.ts, computed := true, status := st }
def finishing (st : Nat) (q : List UCmd) : State := { up with units := [(3, { running := some (doneRun st), queue := q })] }
theorem test_done_inTime (st : Nat) (q : List UCmd) : (finishing st q).overTime 3 (doneRun st) = false := State.overTime_fresh (Nat.le_refl _)
theorem test_cmd_complete : (((finishing 0 []).commandComplete 3 0).unit 3).running = none ∧ ((finishing 4 []).commandComplete 3 0).unitNotices = [(3, 4, 0, 0)] ∧
    ((((finishing 8 [ucmd 2 0]).commandComplete 3 0).unit 3).running.map (·.cmd)) = some (ucmd 2 0) ∧ ((finishing 8 []).commandComplete 3 0).unitNotices = [] := by
  rw [State.commandComplete_inTime (r := doneRun 0) rfl rfl (test_done_inTime 0 []), State.commandComplete_inTime (r := doneRun 4) rfl rfl (test_done_inTime 4 []),
    State.commandComplete_inTime (r := doneRun 8) rfl rfl (test_done_inTime 8 [ucmd 2 0]), State.commandComplete_inTime (r := doneRun 8) rfl rfl (test_done_inTime 8 [])]
  decide +kernel
def unit3 (r : URun) (x : Machine.PUnit := {}) : State := { up with units := [(3, { x with running := some r })] }
def runOf (p w : Nat) : URun := { cmd := ucmd p w, startTs := up.ts }
theorem test_cmd_bad : (runOf 7 0).cmd.prim = 7 ∧ (runOf 7 0).cmd.resultEn = false ∧ (runOf 7 0).cmd.tallyEn = false ∧
    ((nx (.privetCommandComplete 3 0) (unit3 (runOf 7 0))).unit 3).lastStatus = 3 ∧
    ((nx (.privetCommandComplete 3 0) (unit3 { aRun with cmd := ⟨grainOf 1 0, true⟩ })).unit 3).lastStatus = 3 := by decide +kernel
theorem test_cmd_limit : (unit3 aRun).overTime 3 aRun = true ∧ (((unit3 aRun).timeLimit 3 0).unit 3).running.map (·.status) = some 7 ∧ (runOf 1 0).paused = false ∧
    (unit3 (runOf 1 0)).overTime 3 (runOf 1 0) = false := by
  have h : (unit3 aRun).overTime 3 aRun = true := State.overTime_late (by decide +kernel)
  refine ⟨h, ?_, rfl, State.overTime_fresh (by decide +kernel)⟩
  rw [State.timeLimit_late (r := aRun) rfl rfl h]
  decide +kernel
/-- Every primitive with a size of zero ends with status 0. -/
theorem test_prim_empty : ∀ p ∈ [(1, 3 * 2 ^ 25), (2, 3 * 2 ^ 24), (3, 0), (4, 0), (5, 0), (6, 0)], (runOf p.1 p.2).cmd.prim = p.1 ∧ (runOf p.1 p.2).cmd.refused = none ∧
    primEmpty p.1 (runOf p.1 p.2).cmd.params = true := by decide +kernel
theorem test_prims_end : ∀ p ∈ [(1, 3 * 2 ^ 25), (2, 3 * 2 ^ 24), (3, 0), (4, 0), (5, 0), (6, 0)], (unit3 (runOf p.1 p.2)).overTime 3 (runOf p.1 p.2) = false ∧
    (((unit3 (runOf p.1 p.2)).runPrim 3 p.1 {}).unit 3).running.map (·.status) = some 0 := by
  intro p hp
  have h : (unit3 (runOf p.1 p.2)).overTime 3 (runOf p.1 p.2) = false := State.overTime_fresh (Nat.le_refl _)
  refine ⟨h, ?_⟩
  simp only [List.mem_cons, List.not_mem_nil, or_false] at hp
  rcases hp with rfl | rfl | rfl | rfl | rfl | rfl <;> rw [State.runPrim_inTime (by rfl) (by decide +kernel) h] <;> decide +kernel
/-- A COPY of one word from word 0 of an Open page to word 2 of the buffer, and back. -/
def copyCmd (dir : Nat) : URun := runOf 6 (dir * 2 ^ 25 + 2 * 2 ^ 26 + 1 * 2 ^ 37)
def copying (dir : Nat) : State := { unit3 (copyCmd dir) { buffer := [(64, 5#8)] } with
  tiers := [(0, { entries := [(0, { valid := true, base := 0, limit := 0 })], words := [(unitOff 3 0 / 32, { mode := .open })], mem := [(unitOff 3 0, 9#8)] })] }
theorem test_copy_inTime (d : Nat) : (copying d).overTime 3 (copyCmd d) = false := State.overTime_fresh (Nat.le_refl _)
theorem test_prim_copy : (copyCmd 0).cmd.refused = none ∧ primEmpty 6 (copyCmd 0).cmd.params = false ∧ (copying 0).unitPoor 3 0 = false ∧ (copying 0).regOn 0 8 = false ∧
    prm (copyCmd 0).cmd.params 0 37 12 = 1 ∧ prm (copyCmd 1).cmd.params 0 25 1 = 1 ∧ prm (copyCmd 0).cmd.params 0 25 1 = 0 ∧ ((copying 0).tier 0).unitMay 0 = true ∧
    (copying 0).atomicWaits 0 3 = false ∧ (copyCmd 0).made = 0 ∧
    ((copying 0).tier 0).word 0 (unitOff 3 0 / 32) = { mode := .open } ∧ SMap.get 0#8 (((copying 0).runPrim 3 6 {}).unit 3).buffer 64 = 9#8 ∧
    (((copying 1).runPrim 3 6 {}).tier 0).byte (unitOff 3 0) = 5#8 := by
  rw [State.runPrim_inTime (r := copyCmd 0) rfl (by decide +kernel) (test_copy_inTime 0), State.runPrim_inTime (r := copyCmd 1) rfl (by decide +kernel) (test_copy_inTime 1)]
  decide +kernel
theorem test_copy_goes : let l := (((copying 0).unitWork 3 (copyCmd 0).acc).prim 6 (copyCmd 0).cmd.bf (copyCmd 0).cmd.rz (copyCmd 0).cmd.params).2.trace.reverse
    l ≠ [] ∧ (((copying 0).unitGo 3 (copyCmd 0) {} l).unit 3).running.map (fun r => (r.made, r.paused)) = some (l.length, false) := by decide +kernel
def poorly : State := { copying 0 with od := odStore [] 0x5200 1 2, regNow := odStore [] 0x5200 1 2, buckets := [(8, 0)] }
theorem test_prim_poor : poorly.unitPoor 3 0 = true ∧ poorly.overTime 3 (copyCmd 0) = false ∧ ((poorly.runPrim 3 6 {}).unit 3).tokenWait = true := by
  have h : poorly.overTime 3 (copyCmd 0) = false := State.overTime_fresh (by decide +kernel)
  rw [State.runPrim_inTime (r := copyCmd 0) rfl (by decide +kernel) h]
  exact ⟨by decide +kernel, h, by decide +kernel⟩
/-- An MV whose size field is past its largest value. -/
def pastSize : URun := runOf 1 (2 ^ 64 - 1)
theorem test_prim_refused : pastSize.cmd.refused.isSome = true ∧ pastSize.cmd.bad = false ∧ (((unit3 pastSize).runPrim 3 1 {}).unit 3).running.map (·.status) = some 3 := by
  have h : (unit3 pastSize).overTime 3 pastSize = false := State.overTime_fresh (Nat.le_refl _)
  refine ⟨by decide +kernel, by decide +kernel, ?_⟩
  rw [State.runPrim_inTime rfl (by decide +kernel) h]
  decide +kernel
def microAt (n : Nat) : URun := { runOf 0 0 with micro := { (runOf 0 0).micro with pc := n } }
theorem test_micro : (microAt 1024).cmd.prim = 0 ∧ (microAt 1024).cmd.resultEn = false ∧ (microAt 1024).cmd.tallyEn = false ∧ (microAt 7).micro.pc < 1024 ∧
    (((unit3 (microAt 1024)).runMicro 3 ⟨1, []⟩ {}).unit 3).running.map (fun r => (r.computed, r.status)) = some (true, 6) ∧
    (((unit3 (microAt 7)).runMicro 3 ⟨1, [(7, false)]⟩ {}).unit 3).running.map (fun r => (r.computed, r.status)) = some (true, 5) := by
  have h (n : Nat) : (unit3 (microAt n)).overTime 3 (microAt n) = false := State.overTime_fresh (Nat.le_refl _)
  refine ⟨by decide +kernel, by decide +kernel, by decide +kernel, by decide +kernel, ?_, ?_⟩
  · rw [State.runMicro_inTime rfl (by decide +kernel) (h 1024) (by decide +kernel)]
    decide +kernel
  · rw [State.runMicro_inTime rfl (by decide +kernel) (h 7) (by decide +kernel)]
    decide +kernel
def bufW (off : Nat) : State := fly { acc .write (controlBase + off) 4 .atHome with data := ⟨[1#8, 2#8, 3#8, 4#8], false⟩ }
theorem test_buffer_write : placeOf (controlBase + 0x5000000 + 0x10000 * 3 + 0xFFFC) = .control (0x5000000 + 0x10000 * 3 + 0xFFFC) ∧
    ((bufW (0x5000000 + 0x10000 * 3 + 0xFFFC)).ready 1 (· == .write)).isSome = true ∧
    ((nx (.unitBufferWrite 1) (bufW (0x5000000 + 0x10000 * 3 + 0xFFFC))).unit 3).buffer = [(0xFFFC, 1#8), (0xFFFD, 2#8), (0xFFFE, 3#8), (0xFFFF, 4#8)] := by decide +kernel
theorem test_broadcast_window : ((nx (.broadcastWindowWrite 1) (bufW (0x4100000 + 0x10000 * 2 + 0x40))).unit 191).buffer = [(0x40, 1#8), (0x41, 2#8), (0x42, 3#8), (0x43, 4#8)] ∧
    ((nx (.broadcastWindowWrite 1) (bufW (0x4100000 + 0x10000 * 2 + 0x40))).unit 192).buffer = [] := by decide +kernel
theorem test_unit_ctl : (up.unit 3).idle = true ∧ up.odv 0x8000 1 = 0 ∧ ((nx (.unitLoadBegin false 3) up).unit 3).load = true ∧ ((nx (.unitLoadBegin true 3) up).unit 3).load = false ∧
    ((nx (.unitLoadEnd false 3) { up with units := [(3, { load := true })] }).unit 3).crcDue = true ∧
    ((nx (.unitCntClr false 3) { up with units := [(3, { cnt := [(0xC0, 4)] })] }).unit 3).cnt = [] ∧
    ((nx (.unitLoadBegin false 3) { up with od := odStore [] 0x8000 1 1 }).unit 3).load = false := by decide +kernel
theorem test_unit_abort : ((nx (.abortUnit false 3) (unit3 (runOf 1 0) { queue := [ucmd 2 0] })).unit 3).lastStatus = 8 ∧
    ((nx (.abortUnit false 3) (unit3 (runOf 1 0) { queue := [ucmd 2 0] })).unit 3).queue = [] := by decide +kernel
theorem test_load_grain : ((cmdIn { load := true, loadAddr := 1020 }).grainAt 1).isSome = true ∧ ((nx (.loadGrain 1) (cmdIn { load := true, loadAddr := 1020 })).unit 3).loadAddr = 12 ∧
    SMap.get 0 ((nx (.loadGrain 1) (cmdIn { load := true, loadAddr := 1020 })).unit 3).store 1021 = 6 := by decide +kernel


/-! ## Laurel (11) -/

/-- A declaration: one layer, one slice of one extent in stack 0, unit 0; pages 8 to 15 of stack 0 and of the board tier; index in the board tier. -/
def dec : Decl :=
  { layers := 1, kvHeads := 1, dh := 1, kvFmt := 3, spread := 0, extPerBlock := 1, maxBlocks := 256, eos := 1, chunk := 64, pack := 0, cRow := 1, cKv := 1
    cPre := 1, rlSlots := 1, rlBase := 0, extStack := [0], pools := [(8, 8)], spill := (8, 8), bucketsLog2 := 10, bucketBase := 0x8000000000
    nodeBase := 0x8000010000, stackNodes := 4, boardNodes := 0, boardNodeBase := 0, blocktab := 0x8000100000
    slices := [{ layer := 0, head := 0, extent := 0, unit := 0, kOff := 0, vOff := 0x200, rlSlot := 0, blockMod := 1, blockRem := 0, kSlot := 0, vSlot := 1 }]
    weights := [0x20], spares := [(0x20, 9)], kernels := [zeros 64] }

/-- The block with that declaration, serving; operation 1 fetched with descriptor `ds`. -/
def lau (ds : List Byte) (q : SMap Seq := []) (d : Option Decl := some dec) : State :=
  { up with ops := [{ id := 1, port := false, fn := 0, queue := 0, part := 0, desc := ds }], tiers := [(8, {})], laurel := { decl := d, serving := 1, seqs := q } }

/-- A LAUREL descriptor of a sub-operation: bytes from 9 on follow. -/
def lq (sub : Nat) (r : List Byte) : List Byte := padTo 64 (leBytes 8 4 ++ leBytes 1 sub ++ r)

/-- ADMIT of `n` prompt tokens at the base of stack 0, `m` new ones. -/
def admitD (n m : Nat) : List Byte := lq 1 (zeros 7 ++ leBytes 8 0 ++ leBytes 4 n ++ leBytes 4 m ++ leBytes 8 0 ++ leBytes 4 0 ++ leBytes 2 0 ++ zeros 2 ++ leBytes 4 0 ++ zeros 4 ++ leBytes 8 0x1000)

/-- A request for handle `h`, with the bytes from 0x10 on. -/
def byH (sub h : Nat) (r : List Byte := []) : List Byte := lq sub (zeros 3 ++ leBytes 4 h ++ r)

/-- Nothing holds it up, whatever the descriptor. -/
theorem test_lau_free (ds : List Byte) (q : SMap Seq) (d : Option Decl) : (lau ds q d).noConv ∧ (lau ds q d).regsOff 0 ∧ (lau ds q d).allPaid 0 ∧
    (lau ds q d).mayPass (some 0) 18 = true := by
  have h : (lau ds q d).regsOff 0 := State.regsOff_of_reset rfl
  exact ⟨State.noConv_of_tiers (fun x hx => by simp [lau] at hx; subst hx; rfl), h, State.allPaid_of_regsOff h, State.mayPass_of_regsOff h 18⟩

/-- Sequence 5, of generation 3, in a state. -/
def seq5 (st : Nat) : SMap Seq := [(5, { state := st, gen := 3, specEpoch := 2 })]
def h5 : Nat := 5 + 4096 * 3
def opEnd (s : State) : Option (OpStage × Nat × Nat) := (s.op? 1).map fun o => (o.stage, o.status, o.fault)

theorem test_laurel_no_model : ((lau (admitD 4 4) [] none).starts 1 4).isSome = true ∧ fieldAt (admitD 4 4) 8 1 = 1 ∧ (lau (admitD 4 4) [] none).laurel.decl = none ∧
    opEnd (nx (.admitSequence 1) (lau (admitD 4 4) [] none)) = some (.done, 9, 0) ∧ opEnd (nx (.query 1) (lau (byH 7 h5) (seq5 2) none)) = some (.done, 9, 0) := by decide +kernel
theorem test_admit : fieldAt (admitD 4 4) 0x18 4 = 4 ∧ fieldAt (admitD 4 4) 0x1C 4 = 4 ∧ ((lau (admitD 4 4)).starts 1 4).map (fun o => (lau (admitD 4 4)).admitReason o dec) = some 0 ∧
    opEnd (nx (.admitSequence 1) (lau (admitD 4 4))) = some (.done, 0, 0) ∧ ((nx (.admitSequence 1) (lau (admitD 4 4))).seq 0).state = 1 ∧
    ((nx (.admitSequence 1) (lau (admitD 4 4))).seq 0).seed = up.laurelTs ∧ (nx (.admitSequence 1) (lau (admitD 4 4))).outbox = [.hostWrite false 0x1000 (zeros 8) false] :=
  ⟨by decide +kernel, by decide +kernel, by decide +kernel, by decide +kernel, by decide +kernel, rfl, by decide +kernel⟩
theorem test_admit_refused : opEnd (nx (.admitSequence 1) (lau (admitD 16384 4))) = some (.done, 3, 5) ∧ opEnd (nx (.admitSequence 1) (lau (admitD 16383 4))) = some (.done, 0, 0) ∧
    opEnd (nx (.admitSequence 1) (lau (admitD 0 4))) = some (.done, 0, 0) ∧ ((nx (.admitSequence 1) (lau (admitD 0 4))).op? 1).map (·.zeroLen) = some true := by decide +kernel
theorem test_handle_checks : ((lau (byH 2 h5) (seq5 2)).starts 1 4).isSome = true ∧ opEnd (nx (.cancel 1) (lau (byH 2 5) (seq5 2))) = some (.done, 3, 2) ∧
    opEnd (nx (.cancel 1) (lau (byH 2 h5) [(5, { state := 2, gen := 3, part := 1 })])) = some (.done, 3, 3) ∧
    opEnd (nx (.cancel 1) (lau (byH 2 h5) (seq5 8))) = some (.done, 3, 0x0A) := by decide +kernel
theorem test_cancel_pause_resume : fieldAt (byH 2 h5) 0x0C 4 = h5 ∧ ((nx (.cancel 1) (lau (byH 2 h5) (seq5 3))).seq 5).cancel = true ∧
    ((nx (.pauseSequence 1) (lau (byH 5 h5) (seq5 3))).seq 5).held = true ∧ opEnd (nx (.resumeSequence 1) (lau (byH 6 h5) (seq5 4))) = some (.done, 3, 8) ∧
    ((nx (.resumeSequence 1) (lau (byH 6 h5) [(5, { state := 4, gen := 3, held := true })])).seq 5).held = false ∧
    (nx (.query 1) (lau (byH 7 h5 (leBytes 8 0x2000)) (seq5 4))).outbox = [.hostWrite false 0x2000 (({ state := 4, gen := 3, specEpoch := 2 } : Seq).bytes 5) false] := by
  decide +kernel
theorem test_draft : (lau []).policy 3 ≠ 0 ∧ fieldAt (byH 3 h5 (leBytes 2 2 ++ leBytes 1 2 ++ zeros 1 ++ leBytes 4 9 ++ leBytes 4 8)) 0x12 1 = 2 ∧
    ((nx (.draft 1) (lau (byH 3 h5 (leBytes 2 2 ++ leBytes 1 2 ++ zeros 1 ++ leBytes 4 9 ++ leBytes 4 8)) (seq5 3))).seq 5).drafts = [9, 8] ∧
    opEnd (nx (.draft 1) (lau (byH 3 h5 (leBytes 2 1 ++ leBytes 1 2)) (seq5 2))) = some (.done, 3, 9) ∧
    opEnd (nx (.draft 1) (lau (byH 3 h5 (leBytes 2 2 ++ leBytes 1 2)) (seq5 4))) = some (.done, 3, 8) := by decide +kernel
theorem test_receive : (nx (.receive 1) (lau (byH 4 0 (leBytes 8 0x40 ++ leBytes 4 16384)))).laurel.recv = [(0, [⟨1, 0x40, 16384⟩])] ∧
    opEnd (nx (.receive 1) (lau (byH 4 0 (leBytes 8 0x40 ++ leBytes 4 16383)))) = some (.done, 3, 0x0C) ∧
    opEnd (nx (.receive 1) (lau (byH 4 0 (leBytes 8 0x41 ++ leBytes 4 16384)))) = some (.done, 3, 0x0C) ∧
    opEnd (nx (.receive 1) (lau (byH 4 0 (leBytes 8 0x41 ++ leBytes 4 0)))) = some (.done, 0, 0) := by decide +kernel

/-- One sequence that meets what every row of the list asks. -/
def liveSeq : SMap Seq := [(5, { state := 2, gen := 3, specEpoch := 2, held := true })]
theorem test_rows_meet : ∀ d ∈ [admitD 4 4, byH 2 h5, byH 3 h5 (leBytes 2 2 ++ leBytes 1 1), byH 4 h5 (leBytes 8 0x40 ++ leBytes 4 16384), byH 5 h5, byH 6 h5, byH 7 h5],
    ((lau d liveSeq).starts 1 4).map (fun o => (o.status, o.part)) = some (0, 0) ∧ (d ≠ admitD 4 4 → fieldAt d 0x0C 4 = h5) ∧ h5 % 4096 = 5 ∧
      ((lau d liveSeq).seq 5).handle 5 = h5 ∧ (lau d liveSeq).policy 3 ≠ 0 := by decide +kernel
theorem test_admit_meets : fieldAt (admitD 4 4) 0x0C 4 = 0 ∧ ((lau (admitD 4 4) [(0, { state := 2, held := true })]).seq 0).handle 0 = 0 ∧
    ((lau (admitD 4 4) [(0, { state := 2, held := true })]).starts 1 4).map (fun o => (lau (admitD 4 4) [(0, { state := 2, held := true })]).admitReason o dec) = some 0 := by decide +kernel

/-- A step of one entry, sequence 5, in row 0. -/
def stepOf : StepSt := { num := 9, running := true, entries := [⟨5, h5, false, true, false, 3, 0, 10, 1, [7], 0, 1, 0, 0⟩], rows := 1, release := 100 }
def inStep (x : StepSt := stepOf) : State := let s := lau [] (seq5 3); { s with ops := [], laurel := { s.laurel with step := x } }

theorem test_step_launch : (inStep).kernelMay (zeros 64) = true ∧ (nx .stepKernelLaunch (inStep)).laurel.step.launched = 1 ∧
    (nx .stepKernelLaunch (inStep)).launches.map (fun l => (l.by_ == .laurel, l.words)) = [(true, 0)] ∧ (nx .stepKernelLaunch (inStep)).drain.active = true := by decide +kernel
def lateDrain : State := { up with drain := { active := true, since := up.ts - 1000 * up.odv 0x6040 2 - 120 } }
theorem test_drain_overdue : 1000 * lateDrain.odv 0x6040 2 ≤ lateDrain.laurelTs - lateDrain.drain.since ∧ lateDrain.log.intake.length < 64 ∧
    lateDrain.power.isolated = false ∧ lateDrain.drain.reached = false ∧ lateDrain.drainLate.drain.overdue = true := by
  have h : 1000 * lateDrain.odv 0x6040 2 ≤ lateDrain.laurelTs - lateDrain.drain.since := by
    have := lateDrain.fabricTs_ge 0x89
    have : 1000 * lateDrain.odv 0x6040 2 + lateDrain.drain.since + 120 ≤ lateDrain.ts := by decide +kernel
    unfold State.laurelTs
    omega
  refine ⟨h, by decide +kernel, by decide +kernel, rfl, ?_⟩
  have : lateDrain.isReady = true := by decide +kernel
  simp only [State.drainLate, h, this, decide_true]
  rfl
theorem test_scale_fold : (nx .scaleFold { up with folds := [(4, 9)], laurel := { slots := [(4, { declared := true, stepMax := 3 })] } }).laurel.slots =
      [(4, { declared := true, stepMax := 9, folded := true })] ∧ (nx .scaleFold { up with folds := [(4, 9)] }).laurel.slots = [] := by decide +kernel
theorem test_unit_notice : (inStep).stepParts = [0] ∧ ((nx .privetFaultNotice { inStep with unitNotices := [(3, 2, 5, 0)] }).seq 5).fault = 1 ∧
    (nx .privetFaultNotice { inStep with unitNotices := [(3, 5, 5, 0)] }).laurel.step.aborting = true ∧
    (nx .privetFaultNotice { inStep with unitNotices := [(3, 4, 5, 0)] }).laurel.step.aborting = false ∧
    (nx .privetFaultNotice { inStep with unitNotices := [(3, 5, 5, 1)] }).laurel.step.aborting = false := by decide +kernel
def weightOut : State := let s := lau []
  { s with od := odStore [] 0x6000 9 1, tiers := [(0, { pages := [(2, 2)] }), (8, {})], laurel := { s.laurel with waitPage := some (0, 2) } }
theorem test_weight_page : weightAt 0x20 = (0, 2) ∧ weightOut.autoRepair 0 2 = some 9 ∧ (weightOut.tier 0).page 2 = 2 := by decide +kernel

/-- Sequence 5 walks: prompt of 100 tokens at `a`. -/
def walking (a n : Nat) : State := let s := lau [] [(5, { state := 1, gen := 3, promptLen := n, promptAddr := a })]
  { s with ops := [], laurel := { s.laurel with walks := [⟨5, 0, noNode⟩] } }
theorem test_walk_ends : (walking 0 64).drain.active = false ∧ ((nx (.berylWalk 5) (walking 0 64)).seq 5).state = 2 ∧ (nx (.berylWalk 5) (walking 0 64)).laurel.walks = [] := by
  decide +kernel
/-- Node 0 holds block 0 of a prompt of zeros; every bucket names it. -/
def withNode (s : State) : State :=
  { s with tiers := [(8, { mem := [(0x10004, 255#8), (0x10005, 255#8), (0x10006, 255#8), (0x10007, 255#8), (0x10009, 1#8)] })]
           laurel := { s.laurel with nodes := [0], kvdir := [(0, { state := 1, refs := 1, indexed := true })] } }
theorem test_walk_takes : (100 - 1) / 64 = 1 ∧ ((withNode (walking 0 100)).readDie 0 256).1.poison = false ∧
    ((withNode (walking 0 100)).probeNode dec (blockKey 0 noNode (zeros 256)) 0 noNode (zeros 256) 16 0).1 = some 0 ∧
    ((withNode (walking 0 100)).nodeRefs dec 0 0).1 = [(0, ⟨0, 0, false⟩)] ∧ (withNode (walking 0 100)).refOk ⟨0, 0, false⟩ = true ∧ (withNode (walking 0 100)).genAge 0 < 2 ^ 30 := by
  decide +kernel
theorem test_walk_taken : ((nx (.berylWalk 5) (withNode (walking 0 100))).seq 5).chain = [0] ∧ ((nx (.berylWalk 5) (withNode (walking 0 100))).seq 5).len = 64 ∧
    (nx (.berylWalk 5) (withNode (walking 0 100))).laurel.walks = [⟨5, 1, 0⟩] := by decide +kernel
theorem test_walk_misses : ((walking 0 100).probeNode dec (blockKey 0 noNode (zeros 256)) 0 noNode (zeros 256) 16 0).1 = none := by decide +kernel
/-- Sequence 5 has its first block whole. -/
def inserting : State := let s := lau [] [(5, { state := 3, gen := 3, promptLen := 64, len := 64, blocks := 1 })]
  { s with ops := [], laurel := { s.laurel with kvdir := [(0, { state := 1, refs := 1 })] } }
theorem test_insert : inserting.insertDue 5 = true ∧ (inserting.blockTokens (inserting.seq 5) 0).1 = ⟨zeros 256, false⟩ ∧ inserting.keyPart 0 = 0 ∧
    (inserting.refsOf dec 5 1).1 = [(0, 0, ⟨0, 0, false⟩)] ∧ inserting.refOk ⟨0, 0, false⟩ = true ∧ inserting.freeNode dec = some 0 := by decide +kernel
theorem test_inserted : (nx (.nodeInsert 5) inserting).laurel.nodes = [0] ∧ ((nx (.nodeInsert 5) inserting).seq 5).chain = [0] ∧ ((nx (.nodeInsert 5) inserting).ext 0).refs = 2 := by
  decide +kernel
theorem test_insert_joins : (withNode inserting).insertDue 5 = true ∧ ((nx (.nodeInsert 5) (withNode inserting)).seq 5).chain = [0] ∧ (nx (.nodeInsert 5) (withNode inserting)).laurel.nodes = [0] := by
  decide +kernel
/-- Its extent moves. -/
def moving (re : Bool) (left : List (Nat × Nat)) (x : Ext) : State := { inserting with laurel := { inserting.laurel with moves := [{ seq := 5, restore := re, left := left }], kvdir := [(0, x)] } }
theorem test_spill : ((moving false [(0, 0)] { state := 1, refs := 1, page := 8 }).readRef (dec.tabAt 5 0 0)).1 = ⟨0, 0, false⟩ ∧
    (moving false [(0, 0)] { state := 1, refs := 1, page := 8 }).refOk ⟨0, 0, false⟩ = true ∧ (moving false [(0, 0)] { state := 1, refs := 1, page := 8 }).freePage dec 8 = some 8 ∧
    ((nx (.extentSpill 5) (moving false [(0, 0)] { state := 1, refs := 2 })).ext 0).state = 1 ∧
    (nx (.extentSpill 5) (moving false [(0, 0)] { state := 1, refs := 2 })).laurel.moves = [{ seq := 5, restore := false, left := [] }] ∧
    ((nx (.extentSpill 5) (moving false [] { state := 3, refs := 1 })).seq 5).state = 6 := by decide +kernel
theorem test_restore : (moving true [(0, 0)] { state := 3, refs := 1, tier := 8, page := 8 }).freePage dec (dec.stackOf 0) = some 8 ∧
    ((moving true [(0, 0)] { state := 3, refs := 1, tier := 8, page := 8 }).readRef (dec.tabAt 5 0 0)).1 = ⟨0, 0, false⟩ ∧
    ((nx (.extentRestore 5) (moving true [] { state := 1, refs := 1 })).seq 5).state = 2 := by decide +kernel

theorem test_walk_meets : (walking 0 64).noWait ((walking 0 64).walk 5) ∧ (withNode (walking 0 100)).noWait ((withNode (walking 0 100)).walk 5) ∧
    inserting.noWait (inserting.insertNode 5) ∧ (moving false [] { state := 3, refs := 1 }).noWait ((moving false [] { state := 3, refs := 1 }).spill 5) ∧
    (moving true [] { state := 1, refs := 1 }).noWait ((moving true [] { state := 1, refs := 1 }).restore 5) ∧ inStep.noWait inStep.stepLaunch := by unfold State.noWait; decide +kernel
/-- The handle of a node's block has another generation than its extent: EXTENT_STALE; one 2^30 generations old is a miss (11 R367, R383). -/
def staleNode (g c : Nat) : State := let s := withNode (walking 0 100)
  { s with laurel := { s.laurel with genCtr := c, kvdir := [(0, { state := 1, refs := 1, indexed := true, gen := g })] } }
theorem test_walk_stale : (staleNode 1 1).refOk ⟨0, 0, false⟩ = false ∧ (staleNode 1 1).genAge 0 < 2 ^ 30 ∧ ((nx (.berylWalk 5) (staleNode 1 1)).seq 5).fault = 4 ∧
    2 ^ 30 ≤ (staleNode 0 (2 ^ 30)).genAge 0 ∧ ((nx (.berylWalk 5) (staleNode 0 (2 ^ 30))).seq 5).state = 2 ∧ ((nx (.berylWalk 5) (staleNode 0 (2 ^ 30))).seq 5).fault = 0 := by decide +kernel
/-- The spill of a paused sequence has been asked for. -/
def spillAsked : State := let s := moving false [] { state := 1, refs := 1, page := 8 }
  { s with laurel := { s.laurel with seqs := [(5, { state := 4, gen := 3, promptLen := 64, len := 64, blocks := 1 })] } }
theorem test_spill_taken : spillAsked.mayMove 5 { seq := 5, restore := false, left := [] } = true ∧ spillAsked.noWait (spillAsked.spill 5) ∧ ((nx (.extentSpill 5) spillAsked).seq 5).state = 5 ∧
    (nx (.extentSpill 5) spillAsked).laurel.moves.map (·.left) = [[(0, 0)]] := by unfold State.noWait; decide +kernel
theorem test_move_meets : (moving false [] { state := 3, refs := 1 }).mayMove 5 { seq := 5, restore := false, left := [] } = true ∧
    ((moving false [(0, 0)] { state := 1, refs := 1, page := 8 }).moveRef dec 5 0 0).1 = ⟨0, 0, false⟩ ∧
    inserting.inBuilding dec (blockKey 0 noNode (zeros 256)) 0 noNode (zeros 256) = none ∧
    (((withNode inserting).workingFor 0).blockTokens ((withNode inserting).seq 5) 0).1 = ⟨zeros 256, false⟩ := by decide +kernel
/-- A buffer of partition 0 and a batch that ends sequence 5. -/
def delivering : State := let s := lau [] (seq5 8)
  { s with ops := s.ops.map (fun o => { o with stage := .running }), laurel := { s.laurel with recv := [(0, [⟨1, 0x1000, 16384⟩])], batches := [(0, [⟨9, 0, [(5, true, zeros 48)], 4, some 3⟩])] } }
theorem test_batch : (delivering.op? 1).map (·.status) = some 0 ∧ (nx (.batchDeliver 0) delivering).seq 5 = { gen := 4 } ∧ (nx (.batchDeliver 0) delivering).laurel.batches = [] ∧
    opEnd (nx (.batchDeliver 0) delivering) = some (.done, 0, 0) ∧ (nx (.batchDeliver 0) delivering).outbox.length = 1 := by decide +kernel
/-- A DRAIN, with no model resident. -/
def draining : State := let s := lau (padTo 64 [5#8]) [(5, { state := 2, gen := 3, cancel := true }), (6, { state := 2, gen := 1, held := true }), (7, { state := 2, removed := true })] none
  { s with ops := s.ops.map (fun o => { o with stage := .running }), drain := { active := true, ops := [1] }, laurel := { s.laurel with sat := [(1, 4)] }
           tiers := [(0, { pending := some ⟨1, 2, 0, 0⟩ })] }
theorem test_quiet : draining.mayQuiet = true ∧ (draining.op? 1).map (fun o => (o.opcode, o.stage, o.status)) = some (5, .running, 0) ∧ (draining.tier 0).pending = some ⟨1, 2, 0, 0⟩ ∧
    opEnd (nx (.stepQuietRaise {}) draining) = some (.done, 0, 0) ∧ (nx (.stepQuietRaise {}) draining).drain.active = false ∧
    (nx (.stepQuietRaise {}) draining).laurel.satLast = [(1, 4)] ∧ ((nx (.stepQuietRaise {}) draining).tier 0).entries = [(2, { valid := true, isSealed := true })] ∧
    ((nx (.stepQuietRaise {}) draining).seq 5).endReason = 4 ∧ ((nx (.stepQuietRaise {}) draining).seq 6).state = 4 ∧ (nx (.stepQuietRaise {}) draining).seq 7 = { gen := 1 } := by
  decide +kernel
/-- The boundary has been reached; the march holds it, or nothing. -/
def reachedB (held : Bool) : State := { draining with drain := { draining.drain with reached := true, heldMarch := held } }
theorem test_quiet_held : (reachedB true).mayQuiet = true ∧ (nx (.stepQuietRaise {}) (reachedB true)).drain.quiet = true ∧ (nx (.stepQuietRaise {}) (reachedB true)).drain.active = true ∧
    (reachedB false).mayQuiet = true ∧ (reachedB false).noWait ((reachedB false).raiseQuiet {}) ∧ (nx (.stepQuietRaise {}) (reachedB false)).drain.active = false := by
  unfold State.noWait; decide +kernel


/-! ## Host ports, queues, operations, partitions, stewardship (10) -/

/-- Function 0 of port 0 holds pool queues 32 to 35 for partition 0; queue 33 is as given. -/
def hostS (q : QPair := {}) : State :=
  { State.reset with ports := [(0, { up := true, rate := 6, width := 8, fns := [(0, { qBase := 32, qCount := 4, event := 5 })] }), (1, { up := true, rate := 6, width := 8 })], queues := [(33, q)] }

theorem test_port_reset : (hostS).perstOf false = false ∧ ((hostS { state := 1 }).port false).up = true ∧ ((nx (.portReset false 1) (hostS { state := 1 })).port false).up = false ∧
    ((nx (.portReset false 0) (hostS { state := 1 })).fn false 0).qCount = 4 ∧ ((nx (.portReset false 0) (hostS { state := 1 })).fn false 0).event = 0 ∧
    (nx (.portReset false 1) (hostS { state := 1 })).queue 33 = {} ∧ ((nx (.portReset false 1) (hostS)).port true).up = true := by decide +kernel
theorem test_perst : (nx (.perstDeassert false) { up with power := { up.power with perst := [true, true] } }).power.perst = [false, true] ∧
    ((nx (.perstDeassert false) { up with power := { up.power with perst := [true, true] } }).port false).causeEnd = up.ts := by decide +kernel
theorem test_link_up : State.reset.perstOf true = false ∧ (State.reset.port true).causeEnd + 1000000 ≤ State.reset.ts ∧ 6 ≤ State.reset.portSet true 2 ∧ 8 ≤ State.reset.portSet true 3 ∧
    ((nx (.pcieLinkUp true 6 8) State.reset).port true).width = 8 ∧ ((nx (.pcieLinkUp true 7 8) State.reset).port true).up = false ∧
    ((nx (.pcieLinkUp true 1 16) State.reset).port true).up = false := by decide +kernel
theorem test_flr : (hostS).fnUp false 0 = true ∧ ((nx (.functionLevelReset false 0) (hostS { state := 1 })).fn false 0).event = 0 ∧
    (nx (.functionLevelReset false 0) (hostS { state := 1 })).queue 33 = {} ∧ ((nx (.functionLevelReset false 0) (hostS)).fn false 0).qBase = 32 := by decide +kernel
/-- Port 0's aperture shows the scratchpads; tile 1 holds a byte. -/
def aper : State := { hostS with ports := [(0, { up := true, rate := 6, width := 8, fns := [(0, { base := 12 })] })], tiles := [(1, { scratch := [(9, 7#8)] })] }
theorem test_aperture_read : aper.reach false 0 = true ∧ (12 * 2 ^ 36 + 0x200008) % 2 ^ 64 = scratchBase 1 + 8 ∧ spanMapped (scratchBase 1 + 8) 3 = true ∧
    (nx (.apertureRead false 0x200008 100 0) aper).txns.map (fun q => (q.dest.addr, q.len, q.kind == .read)) = [(scratchBase 1 + 8, 56, true), (scratchBase 1 + 64, 44, true)] ∧
    ((nx (.apertureRead false 0x200008 100 0) aper).port false).reads.map (fun x => (x.len, x.left)) = [(100, 2)] ∧ spanMapped (12 * 2 ^ 36 + 0x10000000) 4 = false ∧
    (nx (.apertureRead false 0x10000000 4 0) aper).outbox = [.completion false 1 [] false] := by decide +kernel
theorem test_aperture_write : spanMapped (scratchBase 1 + 62) 3 = true ∧
    (nx (.apertureWrite false 0x20003E [1#8, 2#8, 3#8] true 0) aper).txns.map (fun q => (q.dest.addr, q.data)) =
      [(scratchBase 1 + 62, ⟨[1#8, 2#8], true⟩), (scratchBase 1 + 64, ⟨[3#8], true⟩)] ∧
    SMap.get 0 (nx (.apertureWrite false 0x10000000 [1#8] false 0) aper).modCnt (odKey 0x7209 1) = 1 := by decide +kernel
theorem test_tail : (hostS).poolQueue false 0 1 = some 33 ∧ (nx (.sqTail false 0 1 15) (hostS { state := 1, sqLog := 4 })).queue 33 = { state := 1, sqLog := 4, tail := 15 } ∧
    (nx (.sqTail false 0 1 16) (hostS { state := 1, sqLog := 4 })).queue 33 = { state := 3, error := 2, sqLog := 4 } ∧
    (nx (.sqTail false 0 1 15) { hostS { state := 1, sqLog := 4 } with drain := { active := true } }).queue 33 = { state := 1, sqLog := 4, latched := some 15 } ∧
    (nx (.sqTail false 0 1 15) (hostS { state := 2, sqLog := 4 })).queue 33 = { state := 2, sqLog := 4 } ∧
    (nx (.cqHead false 0 1 1) (hostS { cqLog := 4 })).queue 33 = { cqLog := 4 } := by decide +kernel
theorem test_head : ((nx (.cqHead false 0 1 3) (hostS { state := 1, cqLog := 4, cqTail := 4, used := 5, inFlight := 1, cqHead := 15 })).queue 33).used = 1 := by decide +kernel
theorem test_enable : ((nx (.queueEnable false 0 1) (hostS { sqLog := 4, cqLog := 15, sqBase := 64 })).queue 33).state = 1 ∧ ((nx (.queueEnable false 0 1) (hostS { sqLog := 3, cqLog := 15 })).queue 33).error = 1 ∧
    ((nx (.queueDisable false 0 1) (hostS { state := 1, inFlight := 1 })).queue 33).state = 2 ∧ ((nx (.queueDisable false 0 1) (hostS { state := 3 })).queue 33).state = 0 := by decide +kernel

/-- Queue 33 runs with two descriptors in its ring. -/
def ring : QPair := { state := 1, sqLog := 4, cqLog := 4, tail := 2, sqBase := 0x1000, cqBase := 0x2000, enable := true, phase := true }
theorem test_fetch : (hostS ring).holderOf 33 = some (false, 0, 1) ∧ 2 ≤ (ring.tail + 2 ^ ring.sqLog - ring.sqHead) % 2 ^ ring.sqLog - ring.fetching ∧ (hostS ring).inFlightAll + 2 ≤ 4096 ∧
    (hostS ring).inFlightOf 0 + 2 ≤ (hostS ring).odv 0x5001 1 ∧ (hostS ring).bufferOf false + 2 ≤ 512 ∧ (hostS ring).resetting = [] ∧
    ((hostS ring).placeGrant false).isSome = true ∧ (hostS ring).mayPass (some 0) 19 = true ∧ (hostS ring).fnUp false 0 = true ∧ ((hostS ring).fn false 0).d3hot = false ∧
    (nx (.descriptorFetch 33 2) (hostS ring)).outbox = [.hostRead false 0x1000 128] ∧ ((nx (.descriptorFetch 33 2) (hostS ring)).queue 33).inFlight = 2 := by decide +kernel
/-- The read of both descriptors is outstanding. -/
def reading : State := { hostS { ring with used := 2, inFlight := 2, fetching := 2 } with hostReads := [{ id := 0, port := false, fn := 0, addr := 0x1000, len := 128, what := .fetch 33 2, sent := 0 }], nextId := 1 }
theorem test_completion : reading.hostReads.find? (·.id == 0) = some { id := 0, port := false, fn := 0, addr := 0x1000, len := 128, what := .fetch 33 2, sent := 0 } ∧
    reading.readInTurn { id := 0, port := false, fn := 0, addr := 0x1000, len := 128, what := .fetch 33 2, sent := 0 } = true ∧
    (nx (.hostReadCompletion 0 (zeros 128) true false 0) reading).ops.map (fun o => (o.id, o.queue)) = [(1, 33), (2, 33)] ∧
    ((nx (.hostReadCompletion 0 (zeros 128) true false 0) reading).queue 33).sqHead = 2 ∧
    ({ reading with ts := 49960 }).readLate { id := 0, port := false, fn := 0, addr := 0x1000, len := 128, what := .fetch 33 2, sent := 0 } = false ∧
    ({ reading with ts := 50000 }).readLate { id := 0, port := false, fn := 0, addr := 0x1000, len := 128, what := .fetch 33 2, sent := 0 } = true ∧
    ((nx (.hostReadTimeout 0) { reading with ts := 50000 }).queue 33).error = 3 ∧ ((nx (.hostReadTimeout 0) { reading with ts := 50000 }).queue 33).inFlight = 0 ∧
    ((nx (.hostReadTimeout 0) { reading with ts := 49960 }).queue 33).inFlight = 2 := by decide +kernel

/-- Operation 4 of queue 33 has been fetched. -/
def oper (ds : List Byte) (stew : Bool := true) : State :=
  { hostS ring with ops := [{ id := 4, port := false, fn := 0, queue := 33, part := 0, desc := padTo 64 ds, steward := stew }] }
def ends (s : State) : Option (OpStage × Nat × Nat) := (s.op? 4).map fun o => (o.stage, o.status, o.fault)
def someModel : Model := { id := 1, header := [], signed := false }
theorem test_nop : ((oper [0#8]).starts 4 0).isSome = true ∧ ends (nx (.nop 4) (oper [0#8])) = some (.done, 0, 0) := by decide +kernel
theorem test_drain : ((oper [5#8]).starts 4 5).isSome = true ∧ (nx (.drain 4) (oper [5#8])).drain.ops = [4] ∧ ends (nx (.drain 4) (oper [5#8] false)) = some (.done, 4, 0) := by decide +kernel
/-- IMAGE_LOAD of one byte. -/
def loadD : List Byte := [6#8] ++ zeros 15 ++ [1#8]
theorem test_image_ops : ((oper loadD).starts 4 6).isSome = true ∧ fieldAt (padTo 64 loadD) 0x10 8 = 1 ∧ (nx (.imageLoad 4) (oper loadD)).drain.active = true ∧
    ends (nx (.imageLoad 4) { oper loadD with model := some someModel }) = some (.done, 10, 1) ∧
    ((nx (.imageLoad 4) (oper [6#8])).op? 4).map (fun o => (o.status, o.zeroLen)) = some (0, true) ∧
    ends (nx (.imageLoad 4) (oper [6#8] false)) = some (.done, 4, 0) ∧ ((oper [7#8]).starts 4 7).isSome = true ∧ (nx (.imageUnload 4) (oper [7#8])).drain.ops = [4] ∧
    ends (nx (.imageUnload 4) { oper [7#8] with laurel := { seqs := seq5 2 } }) = some (.done, 11, 0) ∧ ends (nx (.imageUnload 4) (oper [7#8] false)) = some (.done, 4, 0) := by decide +kernel
theorem test_kernel_meets : ({ oper [1#8] with model := some someModel }).noWait (({ oper [1#8] with model := some someModel }).opKernel 4) := by unfold State.noWait; decide +kernel
theorem test_kernel_op : ((oper [1#8]).starts 4 1).isSome = true ∧ ends (nx (.kernel 4) (oper [1#8])) = some (.done, 9, 0) ∧
    (nx (.kernel 4) { oper [1#8] with model := some someModel }).launches.map (fun l => (l.part, l.words)) = [(some 0, 0)] := by decide +kernel
/-- COPY of `n` bytes at die address `a`. -/
def copyD (n a dir : Nat) : List Byte := leBytes 8 2 ++ leBytes 8 0x4000 ++ leBytes 8 a ++ leBytes 4 n ++ leBytes 1 dir
theorem test_copy_op : ((oper (copyD 5 0 0)).starts 4 2).isSome = true ∧ ends (nx (.copy 4) (oper (copyD 0 0 0))) = some (.done, 0, 0) ∧ copyRefused 0xB00000000000 5 = 6 ∧ copyRefused controlBase 5 = 5 ∧
    copyRefused 0 5 = 0 ∧ ends (nx (.copy 4) (oper (copyD 5 controlBase 0))) = some (.done, 5, 0) ∧ (nx (.copy 4) (oper (copyD 5000 0 0))).outbox = [.hostRead false 0x4000 512] ∧ (oper []).mayPass (some 0) 19 = true ∧
    (nx (.copy 4) (oper (copyD 5000 63 1))).txns.map (·.len) = [1, 64, 64, 64] := by decide +kernel
/-- COPY_TENSOR of `n` grains whose transfer descriptor stands at die address 0, the tensor descriptor after it. -/
def tensorD (n dir : Nat) (at_ : Nat := 0) : List Byte := leBytes 8 3 ++ leBytes 8 0x4000 ++ leBytes 8 at_ ++ leBytes 4 n ++ leBytes 1 dir
def tens (n dir : Nat) (loc : Bool) : State :=
  let s := oper (tensorD n dir)
  { s with tiers := [(0, { mem := (ByteMap.write [] 0 (leBytes 8 64 ++ zeros 20 ++ leBytes 4 32 ++ leBytes 4 2 ++ zeros 28)).write 64 (bfTable (scratchBase 1 + 256) 2 loc).bytes })] }
theorem test_tensor_op : ((tens 2 0 false).starts 4 3).isSome = true ∧ ((tens 2 0 false).op? 4).map (fun o => ((tens 2 0 false).forWho 5 fun s => s.tensorDescs o).1.any (·.poison)) = some false ∧
    ends (nx (.copyTensor 4) (tens 2 0 true)) = some (.done, 3, 0) := by decide +kernel
theorem test_tensor_begins : ((nx (.copyTensor 4) (tens 2 0 false)).op? 4).map (fun o => (o.stage, o.total)) = some (.running, 128) ∧
    (nx (.copyTensor 4) (tens 2 0 false)).outbox = [.hostRead false 0x4000 128] := by decide +kernel
theorem test_tensor_hyps : let x := ((tens 2 0 false).op? 4).map (fun o => (tens 2 0 false).forWho 5 fun s => s.tensorDescs o)
    let ps := (x.map (·.1)).getD []
    let d := TDesc.parse ((ps.getD 1 {}).bytes) []
    let w := Window.of (XDesc.parse ((ps.getD 0 {}).bytes)) d
    x.map (fun y => (y.2.blocked, y.2.mayPass (some 0) 19)) = some (false, true) ∧ d.dist = false ∧ d.isLocal = false ∧ d.bad 1 = false ∧ d.isEmpty = false ∧
    w.vectors ≠ 0 ∧ 0 < w.grains ∧ piecesRefused (tensorPieces w 1 0 2 false) = 0 := by decide +kernel
/-- A transfer descriptor in tile 1's scratchpad: the remote port reads it first, and the operation goes on when it is tried again (03 R94; log 110). -/
theorem test_tensor_waits : let s := nx (.copyTensor 4) (oper (tensorD 2 0 (scratchBase 1)))
    (s.op? 4).map (·.stage) = some .fetched ∧ s.portGot.map (fun x => (x.who, x.addr, x.len)) = [(5, scratchBase 1, 64)] ∧ (s.tile 1).remoteUse.isSome = true := by decide +kernel
theorem test_tensor_empty : ((nx (.copyTensor 4) (tens 0 0 false)).op? 4).map (fun o => (o.stage, o.status, o.zeroLen)) = some (.done, 0, true) ∧
    ((tens 0 0 false).starts 4 3).isSome = true := by decide +kernel
/-- Operation 4 has ended; its queue asks for messages of vector 3 where `irq`. -/
def finished (irq : Nat) (q : QPair) : State :=
  let s := oper [0#8, BitVec.ofNat 8 irq]
  { s with ops := s.ops.map (fun o => { o with stage := .done }), queues := [(33, q)]
           ports := [(0, { up := true, rate := 6, width := 8, fns := [(0, { qBase := 32, qCount := 4, msix := [(60, 1#8)], msixEn := true })] })] }
theorem test_record : (finished 0 {}).mayPass (some 0) 18 = true ∧ ((finished 0 { ring with inFlight := 1, cqTail := 15, used := 1 }).op? 4).map (fun o => (o.stage, o.silent, o.irq)) = some (.done, false, false) ∧
    (nx (.completionRecord 4) (finished 0 { ring with inFlight := 1, cqTail := 15, used := 1 })).outbox.length = 1 ∧
    ((nx (.completionRecord 4) (finished 0 { ring with inFlight := 1, cqTail := 15, used := 1 })).queue 33).phase = false ∧
    ((nx (.completionRecord 4) (finished 0 { ring with inFlight := 1, cqTail := 14, used := 1 })).queue 33).cqTail = 15 := by decide +kernel
theorem test_message : ((finished 1 { ring with irqEn := true, vec := 3 }).fn false 0).masked 3 = false ∧ ((finished 1 {}).op? 4).map (·.irq) = some true ∧
    (nx (.completionRecord 4) (finished 1 { ring with irqEn := true, vec := 3 })).outbox.head? = some (.msix false 0 3) := by decide +kernel
theorem test_holdoff : (finished 0 {}).holderOf 33 = some (false, 0, 1) ∧ (finished 0 {}).fnUp false 0 = true ∧ ((finished 0 {}).fn false 0).msixEn = true ∧ 1000 * 5 ≤ (finished 0 {}).ts - 0 ∧
    (nx (.msixHoldoffExpire 33) (finished 0 { vec := 3, holdoff := 5, lastMsg := some 0, msgWaits := true })).outbox = [.msix false 0 3] := by decide +kernel
/-- Assignment of queues 64 to 67 to function 0 of port 0 for partition 0. -/
def asg (base : Nat) : Word64 := BitVec.ofNat 64 (base * 32 + 4 * 2 ^ 18)
theorem test_assign : (hostS).assignResult false false 0 64 4 0 = 0 ∧ bits (asg 64).toNat 18 11 = 4 ∧ bits (asg 64).toNat 5 13 = 64 ∧ ((nx (.queueAssign false 0 (asg 64)) (hostS)).fn false 0).qBase = 64 ∧
    (hostS).assignResult false false 0 8191 4 0 = 5 ∧ ((nx (.queueAssign false 0 (asg 8191)) (hostS)).fn false 0).qBase = 32 := by decide +kernel
theorem test_partition_reset : (hostS).ownerOf 0 = some false ∧ (hostS).ownerOf 0 ≠ some true ∧ (hostS).stew.port = false ∧ (nx (.partitionReset false 0 0) (hostS)).resetting = [(0, 0)] ∧
    ((nx (.partitionReset true 0 0) (hostS)).fn true 0).prResult = 1 ∧ ((nx (.partitionReset false 0 0) { hostS with resetting := [(1, 0)] }).fn false 0).prResult = 2 ∧
    ({ hostS { ring with inFlight := 1 } with resetting := [(0, 0)] }).partBusy 0 = false ∧
    ((nx (.partitionResetDone 0) { hostS { ring with inFlight := 1 } with resetting := [(0, 0)] }).queue 33).state = 0 := by decide +kernel
theorem test_steward : (nx (.releaseStewardship false) (hostS)).stew = { port := true, changes := 1 } ∧ ((nx (.releaseStewardship true) (hostS)).fn true 0).stewResult = 1 ∧
    ((nx (.releaseStewardship false) aper).fn false 0).stewResult = 2 ∧ (nx (.claimStewardship true) { hostS with ports := [(1, { up := true })] }).stew.port = true ∧
    ((nx (.claimStewardship true) (hostS)).fn true 0).stewResult = 3 := by decide +kernel
def lapsed : State := { State.reset with ports := [(0, { wasReset := true }), (1, { up := true })] }
theorem test_auto_pass : lapsed.odv 0x4100 3 = 1 ∧ 1000000 * lapsed.odv 0x4100 4 ≤ lapsed.ts - (lapsed.port lapsed.stew.port).resetTs ∧
    (nx .stewardAutoPass lapsed).stew = { port := true, changes := 1 } := by decide +kernel
theorem test_mailbox : (nx (.mailboxRead false 0 0x7000 1) (hostS)).dictQ = [.mailbox false 0 true false 0x7000 1 []] ∧
    (nx (.mailboxWrite false 0 0x7000 1 2) (hostS)).dictQ = [.mailbox false 0 true true 0x7000 1 [0#8, 0#8]] ∧
    ((nx (.mailboxRead false 0 0x7000 2) (nx (.mailboxRead false 0 0x7000 1) (hostS))).fn false 0).mbox.overrun = true := by decide +kernel


/-! ## Object dictionary, Hedgerow, log, march, report (13, 15, 17) -/

/-- A request of function 0 of port 0 in front. -/
def asks (w : Bool) (i sub : Nat) (d : List Byte := []) (s : State := hostS) : State := { s with dictQ := [.mailbox false 0 true w i sub d] }
def box (s : State) : Nat × Nat × List Byte := let m := ((nx (.dictionaryServe 0) s).fn false 0).mbox; (m.status, m.rlength, m.data.read 0 m.rlength)
theorem test_dict_read : (hostS).serves = true ∧ (odRow 0x3000 1).map (fun r => (r.right, r.ty, r.len)) = some (1, 7, 4) ∧ box (asks false 0x3000 1) = (0, 4, leBytes 4 0xEB85) ∧
    box (asks false 0x3000 0) = (0, 1, [5#8]) ∧ box (asks false 0x3000 9) = (1, 0, []) ∧ box (asks false 0x6000 0xA) = (2, 0, []) := by decide +kernel
theorem test_dict_stale : (odRow 0x6100 1).map (fun r => heldElsewhere r 0x6100 1) = some true ∧
    box (asks false 0x6100 1 [] { hostS with power := { up.power with isolated := true }, captured := [(odKey 0x6100 1, 9)] }) = (7, 8, leBytes 8 9) := by decide +kernel
theorem test_dict_write : odRow 0x7777 1 = none ∧ box (asks true 0x7777 1) = (1, 0, []) ∧ box (asks true 0x6100 1) = (2, 0, []) ∧ box (asks true 0x6000 3 [1#8, 0#8]) = (4, 0, []) ∧
    box (asks true 0x6000 3 [8#8]) = (3, 0, []) ∧ (odRow 0x6000 3).map (fun r => (r.right, r.cls, r.ty)) = some (1, 2, 1) ∧
    (nx (.dictionaryServe 0) (asks true 0x6000 3 [5#8])).stored.map (fun w => (w.index, w.sub, w.value)) = [(0x6000, 3, [5#8])] := by decide +kernel
theorem test_dict_permission : ((nx (.dictionaryServe 0) { hostS with dictQ := [.mailbox false 1 true true 0x6000 3 [5#8]] }).fn false 1).mbox.status = 5 := by decide +kernel
theorem test_stored : (nx .storedWriteDone { hostS with stored := [⟨0x6000, 3, [5#8], .mailbox false 0 true true 0x6000 3 [5#8]⟩] }).odv 0x6000 3 = 5 ∧
    (nx .storedWriteDone { hostS with stored := [⟨0x6000, 3, [5#8], .mailbox false 0 true true 0x6000 3 [5#8]⟩] }).power.paramWrites = 2 := by decide +kernel
theorem test_owner_key : (hostS).ownerNow.any (· != 0#8) = false ∧ ({ hostS with ownerKey := [1#8] }).ownerNow.any (· != 0#8) = true ∧
    (nx (.dictionaryServe 0) (asks true 0x8000 2 [1#8])).stored.length = 1 ∧ box (asks true 0x8000 2 [1#8] { hostS with ownerKey := [1#8] }) = (2, 0, []) ∧
    (nx .storedWriteDone (nx (.dictionaryServe 0) (asks true 0x8000 2 [1#8]))).ownerKey = [1#8] := by decide +kernel

/-- Both links are up; address 5. -/
def ringS (inbox : List HFrame := []) : State := { up with hr := { up.hr with addr := 5, inUp := true, outUp := true, inbox := inbox } }
/-- A frame of controller 0x40 to this node. -/
def fr (service : Nat) (payload : List Byte) : HFrame :=
  { da := groupMac, sa := 0x020000000001, service := service, up := false, try_ := 0, hops := 9, dst := 5, src := 0x40, seq := 77, payload := payload }
theorem test_ring : (ringS).serves = true ∧ (ringS).hrLink true = true ∧ (ringS).hrLink false = true := by decide +kernel
theorem test_frame_kinds : frameOf ((fr 1 (zeros 3)).bytes false) = fr 1 (zeros 3) ∧ malformed ((fr 1 (zeros 3)).bytes false) = false ∧ malformed [] = true ∧
    (frameOf ({ fr 1 (zeros 3) with hops := 0 }.bytes false)).hops = 0 ∧ (ringS).hr.seen.contains (0x40, 77, 0) = false ∧ actedOn 1 = true := by decide +kernel
theorem test_frame_for_me : (ringS).hrForMe (fr 1 (zeros 3)) = true ∧ (ringS).hrForMe { fr 1 (zeros 3) with dst := 6 } = false := by
  have h0 := Config.macLow.isLt
  have h : (groupMac == ownMac) = false := by simp [groupMac, ownMac]; omega
  simp [State.hrForMe, h, fr, ringS, up, State.reset]
theorem test_frame_seen : ({ ringS with hr := { (ringS).hr with seen := [(0x40, 77, 0)] } }).hr.seen.contains (0x40, 77, 0) = true := by decide
/-- A frame of this module's own, with its MAC address. -/
theorem test_frame_own : (frameOf ({ fr 1 [] with sa := ownMac, src := 5 }.bytes false)).sa = ownMac ∧ malformed ({ fr 1 [] with sa := ownMac, src := 5 }.bytes false) = false ∧
    (frameOf ({ fr 1 [] with sa := ownMac, src := 5 }.bytes false)).hops = 9 ∧ (frameOf ({ fr 1 [] with sa := ownMac, src := 5 }.bytes false)).src = 5 := by
  have e : ∃ m, Config.macLow = m := ⟨_, rfl⟩
  obtain ⟨m, e⟩ := e
  have h := m.isLt
  refine ⟨?_, by decide +kernel, by decide +kernel, by decide +kernel⟩
  simp [frameOf, HFrame.bytes, beAt, beBytes, leBytes, leNat, ownMac, e]
  omega
theorem test_read_req : (ringS [fr 1 (leBytes 2 0x1000 ++ [7#8])]).hrKept 0x40 77 = none ∧
    (nx .readReq (ringS [fr 1 (leBytes 2 0x1000 ++ [7#8])])).dictQ = [.hedgerow 0x40 77 1 0x1000 7 []] ∧ (nx .readReq (ringS [fr 1 (leBytes 2 0x1000 ++ [7#8])])).hr.inbox = [] := by decide +kernel
def wr : HFrame := fr 3 (leBytes 2 0x6000 ++ [3#8, 0#8] ++ leBytes 2 1 ++ zeros 2 ++ [5#8])
/-- With nothing sent a transit frame leaves at once; behind a frame in hand it waits, and finds no room behind 3,076 bytes (13 R424). -/
theorem test_transit : let w := onWire (putAt ({ fr 1 (zeros 3) with dst := 6 }.bytes false) 17 [8#8]) true
    let busy := { ringS with hr := { (ringS).hr with lineDown := { free := up.ts + 1 } } }
    w.length ≤ 3076 ∧ (busy.hrTransit w false).outbox = [] ∧
      (busy.hrTransit w false).hr.lineDown.transit = [w] ∧ ((ringS).hrTransit w false).outbox = [.hedgerow false w] ∧
      SMap.get 0 (({ busy with hr := { busy.hr with lineDown := { free := up.ts + 1, transit := [zeros 3076] } } } : State).hrTransit w false).hr.cnt 6 = 1 := by
  decide +kernel
theorem test_write_refused : (nx .writeReq { ringS [wr] with od := odStore [] 0x1100 8 2 }).dictQ = [.hedgerow 0x40 77 4 0x6000 3 []] ∧
    (nx (.dictionaryServe 0) (nx .writeReq { ringS [wr] with od := odStore [] 0x1100 8 2 })).outbox.length = 2 ∧
    (nx (.dictionaryServe 0) (nx .writeReq { ringS [wr] with od := odStore [] 0x1100 8 2 })).hr.kept = [] := by decide +kernel
theorem test_write_req : (ringS).hrMayWrite wr = true ∧ ({ ringS with od := odStore [] 0x1100 8 2 }).hrMayWrite wr = false ∧
    (nx .writeReq (ringS [wr])).dictQ = [.hedgerow 0x40 77 3 0x6000 3 [5#8]] := by decide +kernel
theorem test_describe_req : describe 0x6000 3 = [0, 1, 1, 2, 1] ∧ (nx .describeReq (ringS [fr 5 (leBytes 2 0x6000 ++ [3#8])])).outbox.length = 2 ∧
    (nx .describeReq { ringS [fr 5 (leBytes 2 0x6000 ++ [3#8])] with dictQ := [.hedgerow 0x41 1 1 0x1000 7 []] }).dictQ =
      [.hedgerow 0x41 1 1 0x1000 7 [], .hedgerow 0x40 77 5 0x6000 3 []] := by decide +kernel
theorem test_handover : (ringS).handoverStatus (fr 0x30 [2#8]) = 0 ∧ ({ ringS with od := odStore [] 0x1100 8 1 }).handoverStatus (fr 0x30 [2#8]) = 3 ∧ (ringS).handoverStatus (fr 0x30 [3#8]) = 2 ∧
    (nx .handoverReq (ringS [fr 0x30 [2#8]])).stew.port = true ∧ (nx .handoverReq { ringS [fr 0x30 [2#8]] with od := odStore [] 0x1100 8 1 }).stew.port = false := by decide +kernel
theorem test_kept : let s := { ringS [fr 1 (zeros 3)] with hr := { (ringS [fr 1 (zeros 3)]).hr with kept := [(0x40, 77, 2, [9#8])] } }
    s.hrKept 0x40 77 = some (2, [9#8]) ∧ (nx .readReq s).dictQ = [] ∧ (nx .readReq s).outbox.length = 2 := by decide +kernel
theorem test_probe : (nx .probe (ringS [fr 0x40 []])).outbox.length = 2 ∧ (nx .probe (ringS [fr 0x40 []])).hr.inbox = [] := by decide +kernel
theorem test_sweep : let s := { ringS with ts := up.hr.sweepAt + 10000000 }
    s.odNow 0x1100 5 ≠ 0 ∧ (nx .sweep s).hr.sweepCtr = s.hr.sweepCtr + 1 ∧ (nx .sweep s).hr.sweepAt = s.ts ∧ (nx .sweep (ringS)).hr.sweepCtr = (ringS).hr.sweepCtr ∧
    (ringS).ts < (ringS).hr.sweepAt + 10000000 ∧ (nx .sweep { s with od := odStore [] 0x1100 5 0 }).outbox = [] := by decide +kernel
/-- A notice of record 1 awaits its acknowledgement after `k` resends. -/
def noticed (k : Nat) (inbox : List HFrame := []) : State :=
  { ringS inbox with hr := { (ringS inbox).hr with awaiting := [{ seq := 1, sev := 2, bytes := zeros 64, tries := k, sent := 0 }] } }
theorem test_lines : (ringS).linesIdle ∧ (noticed 0).linesIdle := by
  constructor <;> intro b <;> cases b <;> decide +kernel
theorem test_notice_ack : (noticed 0).hr.awaiting.any (·.seq == 1) = true ∧ (nx .noticeAck (noticed 0 [fr 0x21 (leBytes 4 1)])).hr.awaiting = [] ∧
    (nx .noticeAck (noticed 0 [fr 0x21 (leBytes 4 1)])).log.records.map (·.read) = [true] := by decide +kernel
theorem test_resend : 0 + 50000000 ≤ (noticed 0).ts ∧ ((nx (.noticeResend 1) (noticed 2)).hr.awaiting.map (·.tries)) = [3] ∧ (nx (.noticeResend 1) (noticed 3)).hr.awaiting = [] ∧
    (nx (.noticeResend 1) (noticed 3)).outbox = [] := by decide +kernel
theorem test_intake : let s := { ringS with log := { up.log with intake := [{ code := 0x32, source := 0x89, args := [1], time := 8, step := 0 }, { code := 0x33, source := 0x20, args := [1], time := 8, step := 0 }] } }
    (firstEvent s.log.intake).map (·.source) = some 0x20 ∧ s.odv 0x7801 1 = 0 ∧ (nx .eventIntake s).log.records.map (fun r => (r.seq, r.sev)) = [(1, 0), (2, 3)] ∧
    (nx .eventIntake s).log.intake.map (·.source) = [0x89] := by decide +kernel
/-- A march of a mode holds the boundary. -/
def marching (mode : Nat) : State := { up with march := { running := mode }, drain := { active := true, quiet := true, heldMarch := true }, tiles := [(2, { scratch := [(4, 1#8)] })] }
theorem test_march : (marching 1).march.began + marchTime 1 ≤ (marching 1).ts ∧ (nx (.marchDone {}) (marching 1)).march.result = 2 ∧
    ((nx (.marchDone {}) (marching 1)).tile 2).scratch = [(4, 1#8)] ∧
    ((nx (.marchDone {}) (marching 3)).tile 2).scratch = [] ∧ (nx (.marchDone {}) (marching 1)).drain.active = false ∧
    (nx (.marchDone {}) { marching 1 with march := { running := 1, began := up.ts } }).march.result = 0 := by decide +kernel
def loadingS : State := { oper [6#8] with ops := (oper [6#8]).ops.map (fun o => { o with stage := .running }), report := { state := 1 } }
theorem test_report : (up.keyReady = true ∧ up.imageRuns = false ∧ up.power.isolated = false) ∧
    (nx .reportDone { up with report := { state := 1 }, keyReady := false }).report.state = 3 ∧ loadingS.imageRuns = true ∧ (nx .reportDone loadingS).report.state = 1 := by decide +kernel


/-! ## Briar (12) -/

/-- A ring of 4 modules, this one at position 0, every port up but port 0, which is as given; time is well past 60 ms. -/
def ringB (x : BriarPort) : State :=
  { up with ts := 4000000000, briar := { n := 4, ringId := 7, ports := [(0, x), (1, { state := 5 }), (2, { state := 5 }), (3, { state := 5 })]
                                         map := [(1, some ⟨3, [5, 5, 5, 5], 0⟩), (2, some ⟨3, [5, 5, 5, 5], 0⟩), (3, some ⟨3, [5, 5, 5, 5], 0⟩)] } }
/-- A frame of empty slots that has been sent. -/
def aFrame : BFrame := { seq := 0, ack := 4095, nak := false }
def st0 (c : Instr) (x : BriarPort) : Nat := ((nx c (ringB x)).bport 0).state
theorem test_port_states : (ringB { state := 3 }).expectedEnd 0 = (1, 2) ∧ st0 (.cblPrsntChange 0 true) { state := 1 } = 2 ∧ st0 (.cblPrsntChange 0 false) { state := 5 } = 1 ∧ st0 (.lossOfSignal 0) { state := 3 } = 2 ∧
    st0 (.signalDetect 0) { state := 2 } = 3 ∧ st0 (.trainingTimeout 0) { state := 6 } = 2 ∧ st0 (.ident 0 0x7FFF 7 4 1 2) { state := 3, since := 3940000000 } = 3 + 2 ∧
    st0 (.ident 0 0xFFFF 7 4 1 3) { state := 6, since := 4000000000 } = 4 ∧ st0 (.ident 0 0xFFFF 7 4 1 2) { state := 3, since := 3939999960 } = 3 ∧
    st0 (.ident 0 0x7FFE 7 4 1 2) { state := 3, since := 3940000000 } = 3 ∧ st0 (.ackTimeout 0) { state := 5, replay := [aFrame] } = 6 ∧ (ringB { state := 3 }).log.intake.length < 62 ∧
    (nx (.ident 0 0xFFFF 7 5 1 2) (ringB { state := 3, since := 4000000000 })).log.intake.any (fun e => e.code == 0x61 && e.source == 0x8C) = true := by decide +kernel
theorem test_signal_lost : SMap.get 0 ((nx (.lossOfSignal 0) (ringB { state := 4 })).bport 0).cnt 8 = 1 := by decide +kernel
/-- The widths of R396: all lanes, one half whole, or neither; and the first frame of a port that has become UP. -/
theorem test_ident : lanesInUse 0xFFFF = 16 ∧ lanesInUse 0xFF7F = 8 ∧ lanesInUse 0x7F7F = 0 ∧ (ringB { state := 3 }).setsFree 0 = true ∧
    ((nx (.ident 0 0xFF7F 7 4 1 2) (ringB { state := 3, since := 3940000000 })).bport 0).lanes = 8 ∧
    ((nx (.ident 0 0xFF7F 7 4 1 2) (ringB { state := 3, since := 3940000000 })).bport 0).replay.map (·.seq) = [0] ∧
    (nx (.ident 0 0xFF7F 7 4 1 2) (ringB { state := 3, since := 3940000000 })).outbox.length = 2 := by decide +kernel
/-- A frame of SEQ `n` whose slots are a packet of a type to position 0: its header, then `ds`. -/
def frameB (n ty : Nat) (nak : Bool) (crc : Bool := true) (ds : List BSlot := []) : FrameIn :=
  let h : BriarPkt := { ty := ty, west := true, high := false, dst := 0, src := 1 }
  let b := ({ seq := n, ack := 4095, nak := nak, slots := ⟨1, h.header ds.length, none⟩ :: ds } : BFrame).bytes
  { bytes := if crc then b else b.set 1039 1#8 }
/-- R397 and R404, bit by bit: SEQ 9, ACK 4095 and NAK; slot 0 a header, slot 1 data; TYPE 2, west, DST 0, SRC 1, one data grain. -/
theorem test_frame_bits : (frameB 9 2 true true [⟨2, [], none⟩]).bytes.take 12 = leBytes 4 (9 + 4095 * 2 ^ 12 + 2 ^ 24) ++ leBytes 4 9 ++ zeros 4 ∧
    ((frameB 9 2 true true [⟨2, [], none⟩]).bytes.drop 16).take 4 = leBytes 4 (2 + 16 + 2 ^ 12 + 2 ^ 18) := by decide +kernel
theorem test_frame_meets : frameSound (frameB 9 5 false).bytes = true ∧ (linkFrame (frameB 9 5 false).bytes).seq = 9 ∧ (linkFrame (frameB 9 5 true).bytes).nak = true ∧
    frameSound (frameB 9 5 false false).bytes = false ∧ (linkFrame (frameB 9 5 false).bytes).slots.map (·.code) = 1 :: List.replicate 15 0 ∧
    (linkFrame (frameB 9 2 false true [⟨2, zeros 64, none⟩]).bytes).slots.map (·.code) = 1 :: 2 :: List.replicate 14 0 ∧
    grainsAfter ((linkFrame (frameB 9 2 false true [⟨2, zeros 64, none⟩]).bytes).slots.getD 0 {}).bytes = 1 ∧
    (pktOf ((linkFrame (frameB 9 5 false).bytes).slots.getD 0 {}).bytes).ty = 5 := by decide +kernel
theorem test_frame_accepted : ((nx (.briarFrameReceive 0 (frameB 9 5 false)) (ringB { state := 5, expect := 9 })).bport 0).expect = 10 ∧
    ((nx (.briarFrameReceive 0 (frameB 9 5 false)) (ringB { state := 5, expect := 9 })).bport 0).inbox.map (·.ty) = [5] ∧
    ((nx (.briarFrameReceive 0 (frameB 4095 5 false)) (ringB { state := 5, expect := 4095 })).bport 0).expect = 0 := by decide +kernel
theorem test_frame_data : ((nx (.briarFrameReceive 0 (frameB 9 2 false true [⟨2, List.replicate 64 3#8, none⟩])) (ringB { state := 5, expect := 9 })).bport 0).inbox.map (·.data) =
    [[List.replicate 64 3#8]] := by decide +kernel
theorem test_frame_cut : ((nx (.briarFrameReceive 0 (frameB 9 2 false true [⟨3, zeros 64, none⟩])) (ringB { state := 5, expect := 9 })).bport 0).inbox = [] ∧
    ((nx (.lossOfSignal 0) (ringB { state := 5 })).bport 1).queue.map (fun p => (p.ty, p.extra)) = [(6, [1, 2, 5, 5, 5])] := by decide +kernel
theorem test_frame_discarded : ((nx (.briarFrameReceive 0 (frameB 9 5 false false)) (ringB { state := 5, expect := 9 })).bport 0).nakSent = true ∧
    ((nx (.briarFrameReceive 0 (frameB 10 5 false)) (ringB { state := 5, expect := 9 })).bport 0).expect = 9 ∧
    (nx (.briarFrameReceive 0 (frameB 10 5 false)) (ringB { state := 5, expect := 0 })).outbox = [.briar 0 ({ aFrame with nak := true } : BFrame).bytes] := by decide +kernel
theorem test_replays : ((nx (.briarFrameReceive 0 (frameB 9 5 true)) (ringB { state := 5, expect := 9, replay := [aFrame], stuck := 14 })).bport 0).stuck = 15 ∧
    ((nx (.briarFrameReceive 0 (frameB 9 5 true)) (ringB { state := 5, expect := 9, replay := [aFrame], stuck := 15 })).bport 0).state = 6 := by decide +kernel
/-- A packet of position 1 waits at port 0. -/
def waitB (p : BriarPkt) : State := ringB { state := 5, inbox := [p] }
def reqB (ty addr len op : Nat) : BriarPkt := { ty := ty, west := true, high := false, dst := 0, src := 1, tag := 9, op := op, addr := addr, len := len, data := [zeros 64, zeros 64] }
theorem test_requests : (reqB 1 60 10 0).isRequest = true ∧ refusedAt 60 10 = 0 ∧ combOf 8 = some .orU32 ∧ (nx (.briarRead 0) (waitB (reqB 1 60 10 0))).txns.map (·.len) = [4, 6] ∧
    (nx (.briarWrite 0) (waitB (reqB 2 60 10 0))).txns.map (·.data.bytes.length) = [4, 6] ∧ (nx (.briarCombine 0) (waitB (reqB 3 60 8 8))).txns.map (·.len) = [4, 4] := by decide +kernel
theorem test_requests_refused : refusedAt controlBase 4 = 2 ∧ refusedAt 0xB00000000000 4 = 1 ∧ (waitB (reqB 1 controlBase 4 0)).direction 1 = some false ∧ (waitB (reqB 1 controlBase 4 0)).nextHop false 1 = some 1 ∧
    ((nx (.briarRead 0) (waitB (reqB 1 controlBase 4 0))).bport 0).queue.map (fun p => (p.ty, p.status, p.tag)) = [(4, 2, 9)] ∧ (nx (.briarWrite 0) (waitB (reqB 2 0xB00000000000 4 0))).txns = [] := by
  decide +kernel
/-- An access of this module's outstanding at position 1. -/
def asked (k : TxKind) (sent : Nat) (p : List BriarPkt) : State :=
  { ringB { state := 5, inbox := p } with
    txns := [{ id := 1, agent := .core 5, kind := k, dest := ⟨some 1, 0x40⟩, len := 8, stage := .remote, purpose := .posted }]
    briar := { (ringB { state := 5, inbox := p }).briar with reqs := [⟨9, 1, sent⟩] } }
def respB (ty st : Nat) : BriarPkt := { ty := ty, west := true, high := false, dst := 0, src := 1, tag := 9, status := st, data := [List.replicate 64 3#8] }
theorem test_responses : (respB 5 0).isRequest = false ∧ (nx (.briarAck 0) (asked .write 0 [respB 5 2])).txns.map (fun q => (q.status, q.stage)) = [(2, .responding)] ∧
    (nx (.briarReadResp 0) (asked .read 0 [respB 4 0])).txns.map (fun q => (q.status, q.data)) = [(0, ⟨List.replicate 8 3#8, false⟩)] ∧
    (nx (.briarReadResp 0) (asked .read 0 [respB 4 3])).txns.map (fun q => (q.status, q.data.poison)) = [(3, true)] ∧
    SMap.get 0 (nx (.briarAck 0) (waitB (respB 5 0))).briar.cnt 3 = 1 := by decide +kernel
theorem test_lsa_send : ((nx .lsaSend (ringB { state := 3 })).bport 1).queue.map (fun p => (p.ty, p.extra)) = [(6, [1, 3, 5, 5, 5])] ∧ ((nx .lsaSend (ringB { state := 3 })).bport 0).queue = [] := by decide +kernel
def lsaB (n src : Nat) : BriarPkt := { ty := 6, west := true, high := false, dst := 0, src := src, extra := [n, 1, 2, 3, 4] }
theorem test_lsa : SMap.get none (nx (.lsa 0) (waitB (lsaB 4 1))).briar.map 1 = some ⟨4, [1, 2, 3, 4], 4000000000⟩ ∧ SMap.get none (nx (.lsa 0) (waitB (lsaB 3 1))).briar.map 1 = some ⟨3, [5, 5, 5, 5], 0⟩ ∧
    SMap.get none (nx (.lsa 0) (waitB (lsaB 3 5))).briar.map 5 = some ⟨3, [1, 2, 3, 4], 4000000000⟩ := by decide +kernel
theorem test_map_expires : SMap.get none (nx (.linkMapExpire 1) (ringB {})).briar.map 1 = some ⟨3, [], 0⟩ ∧ SMap.get none (nx (.linkMapExpire 1) { ringB {} with ts := 4999960 }).briar.map 1 = some ⟨3, [5, 5, 5, 5], 0⟩ := by decide +kernel
theorem test_remote_timeout : ((asked .read 0 []).txn? 1).map (·.status) = some 0 ∧ 0 + 1000 * (asked .read 0 []).odv 0x4800 6 ≤ (asked .read 0 []).ts ∧
    (nx (.remoteTimeout 9) (asked .read 0 [])).txns.map (fun q => (q.status, q.data.poison)) = [(4, true)] ∧
    (nx (.remoteTimeout 9) (asked .write 4000000000 [])).txns.map (·.status) = [0] ∧ (odRow 0x4800 6).map (fun r => (r.cls, r.len, r.dflt, odInRange r 0x4800 6 9, odInRange r 0x4800 6 100000)) = some (2, 4, 100, false, true) := by decide +kernel

/-- Poison is kept per grain of a row: two elements of 4 bits in each of two bytes (08 R259, R274). -/
theorem test_poison_of_nibbles : ((elemsOf 9 0 0 (pmark true (zeros 1) ++ pmark false (zeros 1)) [] 4).map (·.2)) = [true, true, false, false] := by decide +kernel
/-- A 2 KiB block of the board tier lies on one device of its hedge's six (07 R225). -/
theorem test_board_device : boardDevice (0x600000000 + 2048 * 13 + 5) = (7, 2 * 2048 + 5) := by decide +kernel
theorem test_store_crc : ({ up with units := [(3, { crcDue := true })] }.unit 3).load = false ∧
    ((nx (.storeCrcDone 3) { up with units := [(3, { crcDue := true })] }).unit 3).crcValid = true := by decide +kernel

/-! ## Further witnesses, by statement -/

theorem test_starts_cool (c : Bool) (s : State) : s.startsCool c oStart := by
  intro i ch h hs
  have e : roundOf oStart i = mute := by
    cases i with
    | zero => rfl
    | succ i => cases i <;> rfl
  rw [e] at hs
  have m : ∀ ch, ch < 20 → (convertChan ch (mute.1.getD ch {})).1 ≠ 0 := by decide +kernel
  exact absurd hs (m ch h)
theorem test_march_meets : (marching 1).noWait ((marching 1).settle ((marching 1).endMarch {})) ∧ (marching 3).noWait ((marching 3).settle ((marching 3).endMarch {})) := by unfold State.noWait; decide +kernel
/-- The march ends with step-quiet fallen: the boundary waits for its next raise (04 R143). -/
theorem test_march_unquiet : let s := { marching 1 with drain := { (marching 1).drain with quiet := false, reached := true } }
    s.noWait (s.settle (s.endMarch {})) ∧ (nx (.marchDone {}) s).drain = { active := true, reached := true } := by unfold State.noWait; decide +kernel
theorem test_spill_write : let s := { ringS with od := odStore [] 0x7801 1 0x100000, log := { up.log with intake := [{ code := 0x33, source := 0x20, args := [1], time := 8, step := 0 }] } }
    s.odv 0x7801 1 = 0x100000 ∧ s.serves = true ∧ (nx .eventIntake s).txns.map (fun q => (q.agent == .housekeeping, q.kind == .write, q.dest.addr, q.data.bytes.length)) =
      [(true, true, 0x100000 + 64 * (2 % s.odv 0x7801 2), 64)] := by decide +kernel
theorem test_batch_meets : (∀ y ∈ delivering.ops, y.stage = .fetched → y.opcode = 4 → fieldAt y.desc 8 1 = 4 → y.part = 0 → 1 ≤ y.id) ∧ delivering.mayPass (some 0) 18 = true := by decide +kernel
theorem test_draft_none : fieldAt (byH 3 h5 (leBytes 2 2 ++ leBytes 1 0)) 0x12 1 = 0 ∧ opEnd (nx (.draft 1) (lau (byH 3 h5 (leBytes 2 2 ++ leBytes 1 0)))) = some (.done, 0, 0) ∧
    ((nx (.draft 1) (lau (byH 3 h5 (leBytes 2 2 ++ leBytes 1 0)))).op? 1).map (·.zeroLen) = some true := by decide +kernel
/-- Partition 0 is being reset; its operation 4 is at a stage, its port's link up or not. -/
def resetS (st : OpStage) (link : Bool) (by_ : Nat) : State :=
  let s := oper []
  { s with ops := s.ops.map (fun o => { o with stage := st }), resetting := [(0, by_)], ports := [(0, { (s.port false) with up := link })] }
theorem test_part_done : (resetS .running true 0).partBusy 0 = false ∧ ((resetS .running true 0).op? 4).map (fun o => (o.part, o.silent, o.stage == .done)) = some (0, false, false) ∧
    ends (nx (.partitionResetDone 0) (resetS .running true 0)) = some (.done, 8, 0) ∧ (nx (.partitionResetDone 0) (resetS .running true 0)).resetting = [(0, 0)] := by decide +kernel
theorem test_part_waits : (resetS .done true 0).partBusy 0 = false ∧ ((resetS .done true 0).port false).up = true ∧
    (nx (.partitionResetDone 0) (resetS .done true 0)).resetting = [(0, 0)] ∧ ends (nx (.partitionResetDone 0) (resetS .done true 0)) = some (.done, 0, 0) := by decide +kernel
theorem test_part_over : (resetS .done false 32).partBusy 0 = false ∧ ((resetS .done false 32).port false).up = false ∧ (nx (.partitionResetDone 0) (resetS .done false 32)).resetting = [] ∧
    (nx (.partitionResetDone 0) (resetS .done false 32)).ops = [] ∧
    ((nx (.partitionResetDone 0) (resetS .done false 0)).fn false 0).event.testBit 3 = true := by decide +kernel
theorem test_port_parts : (oper []).ownerOf 0 = some false ∧ (nx (.portReset false 1) (oper [])).resetting.contains (0, 32) = true := by decide +kernel
theorem test_replay_bytes : Out.briar 0 ({ aFrame with ack := 9, nak := false } : BFrame).bytes ∈
    (nx (.briarFrameReceive 0 (frameB 9 5 true)) (ringB { state := 5, expect := 9, replay := [aFrame], stuck := 14 })).outbox := by decide +kernel

/-! ## A weight page restored: its 32,768 grains, of zeros, change nothing (11 R387) -/

theorem spanCuts_grain (a : Nat) : spanCuts (64 * a) 64 = [(0, 64)] := by
  simp [spanCuts, grainCuts]

/-- The page written from its spare: both hold zeros. -/
def repaired : State := let t := weightOut.tier 0; weightOut.setTier 0 { t with pages := SMap.set 0 t.pages 2 3 }

theorem Tier.put_zeros (n : Nat) : ∀ (t : Tier) (off : Nat), t.mem = [] → t.fillBase = 0 → t.fillPage = [] → t.fillRow = [] → t.put off (zeros n) = t := by
  induction n with
  | zero => intros; rfl
  | succ n ih =>
    intro t off h1 h2 h3 h4
    have hf : t.fill off = 0#8 := by simp [Tier.fill, h2, h3, h4, SMap.get]
    have : zeros (n + 1) = 0#8 :: zeros n := rfl
    rw [this, Tier.put, hf, h1]
    have e : ({ t with mem := SMap.set 0#8 ([] : SMap Byte) off (0#8 ^^^ 0#8) } : Tier) = t := by
      cases t; simp_all [SMap.set]
    rw [e]; exact ih t _ h1 h2 h3 h4
theorem repaired_byte (off : Nat) : ((repaired.tier 8).byte off) = 0#8 := by
  have m : (repaired.tier 8).mem = [] := rfl
  have a : (repaired.tier 8).fillBase = 0 := rfl
  have b : (repaired.tier 8).fillPage = [] := rfl
  have c : (repaired.tier 8).fillRow = [] := rfl
  simp [Tier.byte, Tier.fill, m, a, b, c, SMap.get]
theorem repaired_read (g : Nat) : (({ k := 8, t := repaired.tier 8 } : TWork).readGrain g {}) = ⟨{ k := 8, t := repaired.tier 8 }, zeros 64, false, 0, true, (false, false)⟩ := by
  have m : (repaired.tier 8).mode 8 (pageOf (64 * g)) = .plain := rfl
  have p : (repaired.tier 8).page (pageOf (64 * g)) = 0 := rfl
  have d : ({ k := 8, t := repaired.tier 8 } : TWork).disturb g {} = { k := 8, t := repaired.tier 8 } := by
    have e : ({ k := 8, t := repaired.tier 8 } : TWork).disturb g {} = (({ k := 8, t := repaired.tier 8 } : TWork).count 1 0).count 3 0 := rfl
    rw [e]; decide +kernel
  have b : (repaired.tier 8).bytes (64 * g) 64 = zeros 64 := by simp only [Tier.bytes, repaired_byte]; rfl
  simp only [TWork.readGrain, m, p, d, b]
  rfl
theorem repaired_word (n : Nat) : ({ k := 0, t := repaired.tier 0 } : TWork).writeWord .sealed n 0 32 (zeros 32) false = ({ k := 0, t := repaired.tier 0 }, []) := by
  simp only [TWork.writeWord]
  rw [Tier.put_zeros 32 (repaired.tier 0) _ rfl rfl rfl rfl]
  rfl
theorem repaired_write (g : Nat) (hp : (repaired.tier 0).page (pageOf (64 * g)) ≠ 1 ∧ (repaired.tier 0).page (pageOf (64 * g)) ≠ 2): (({ k := 0, t := repaired.tier 0 } : TWork).writeGrain (64 * g) (zeros 64) false {}) = ⟨{ k := 0, t := repaired.tier 0 }, [], false, 0, false, (false, false)⟩ := by
  have m : (repaired.tier 0).mode 0 (pageOf (64 * g)) = .sealed := rfl
  have d : ∀ g, ({ k := 0, t := repaired.tier 0 } : TWork).disturb g {} = { k := 0, t := repaired.tier 0 } := fun g => rfl
  have l : (64 * g + (zeros 64).length - 1) / 32 + 1 - 64 * g / 32 = 2 := by simp [zeros]; omega
  have s0 : spanInWord (64 * g) (zeros 64) (64 * g / 32 + 0) = (0, 32, zeros 32) := by
    have e1 : max (64 * g) (32 * (64 * g / 32 + 0)) = 64 * g := by omega
    have e2 : min (64 * g + 64) (32 * (64 * g / 32 + 0) + 32) = 64 * g + 32 := by omega
    have e3 : 64 * g - 32 * (64 * g / 32 + 0) = 0 := by omega
    have e4 : 64 * g + 32 - 32 * (64 * g / 32 + 0) = 32 := by omega
    have z : (zeros 64).length = 64 := rfl
    simp only [spanInWord, z, e1, e2, e3, e4, Nat.sub_self, Nat.add_sub_cancel_left]
    rfl
  have s1 : spanInWord (64 * g) (zeros 64) (64 * g / 32 + 1) = (0, 32, zeros 32) := by
    have e1 : max (64 * g) (32 * (64 * g / 32 + 1)) = 64 * g + 32 := by omega
    have e2 : min (64 * g + 64) (32 * (64 * g / 32 + 1) + 32) = 64 * g + 64 := by omega
    have e3 : 64 * g + 32 - 32 * (64 * g / 32 + 1) = 0 := by omega
    have e4 : 64 * g + 64 - 32 * (64 * g / 32 + 1) = 32 := by omega
    have e5 : 64 * g + 64 - (64 * g + 32) = 32 := by omega
    have z : (zeros 64).length = 64 := rfl
    simp only [spanInWord, z, e1, e2, e3, e4, e5, Nat.add_sub_cancel_left]
    rfl
  have z0 : (zeros 64).isEmpty = false := rfl
  have r2 : List.range 2 = [0, 1] := rfl
  simp only [TWork.writeGrain, m, hp, d, l, s0, s1, z0, r2, List.foldl, repaired_word]
  rfl
/-- One grain of `copyPage`. -/
def copyGrain (s : State) (i : Nat) : State := 
    let r := s.readDie (pageAddr 8 9 + 64 * i) 64
    (r.2.writeDie (pageAddr 0 2 + 64 * i) r.1.bytes r.1.poison).2
theorem repaired_grain (i : Nat) (h : i < 32768) : copyGrain repaired i = repaired := by
  have a1 : pageAddr 8 9 + 64 * i = 64 * (8590229504 + i) := by
    have : pageAddr 8 9 = 549774688256 := rfl
    omega
  have a2 : pageAddr 0 2 + 64 * i = 64 * (65536 + i) := by
    have : pageAddr 0 2 = 4194304 := rfl
    omega
  have p1 : placeOf (64 * (8590229504 + i) + 0) = .tier 8 (64 * (294912 + i)) := by
    unfold placeOf
    rw [if_neg (by omega), if_pos (by omega)]
    exact congrArg (Place.tier 8) (by omega)
  have p2 : placeOf (64 * (65536 + i) + 0) = .tier 0 (64 * (65536 + i)) := by
    unfold placeOf
    rw [if_pos (by omega)]
    have e : (64 * (65536 + i) + 0) / 0x1000000000 = 0 := by omega
    rw [e]
    exact congrArg (Place.tier 0) (by omega)
  have r : repaired.readDie (64 * (8590229504 + i)) 64 = (⟨zeros 64, false⟩, repaired) := by
    have c : ∀ o, repaired.converting 8 o = false := fun o => rfl
    have g : 64 * (294912 + i) / 64 = 294912 + i := by omega
    have g2 : 64 * (294912 + i) % 64 = 0 := by omega
    have f : repaired.fromTier { k := 8, t := repaired.tier 8 } = repaired := by decide +kernel
    have o : ∀ o, repaired.owesFor o = repaired := fun o => rfl
    simp only [State.readDie, spanCuts_grain, List.foldl, p1, c, o, State.readHome, g, g2, repaired_read, f]
    rfl
  have pg : pageOf (64 * (65536 + i)) = 2 := by unfold pageOf; omega
  have w : repaired.writeDie (64 * (65536 + i)) (zeros 64) false = (true, repaired) := by
    have c : ∀ o, repaired.converting 0 o = false := fun o => rfl
    have f : repaired.fromTier { k := 0, t := repaired.tier 0 } = repaired := by decide +kernel
    have o : ∀ o, repaired.owesFor o = repaired := fun o => rfl
    have z : (zeros 64).length = 64 := rfl
    have k : (((zeros 64).drop 0).take 64) = zeros 64 := rfl
    have u : repaired.untag (.tier 0 (64 * (65536 + i))) = repaired := by
      have : repaired.untag (.tier 0 (64 * (65536 + i))) = repaired.setTier 0 (repaired.tier 0) := rfl
      rw [this]; decide +kernel
    simp only [State.writeDie, z, spanCuts_grain, List.foldl, p2, c, o, State.writeHome, k, repaired_write (65536 + i) (by rw [pg]; decide), f]
    simp [u]
  simp only [copyGrain, a1, a2, r, w]
theorem foldl_fixed {α β : Type} (f : α → β → α) (s : α) : ∀ l : List β, (∀ b ∈ l, f s b = s) → l.foldl f s = s
  | [], _ => rfl
  | b :: l, h => by
    rw [List.foldl, h b (by simp)]
    exact foldl_fixed f s l fun c hc => h c (by simp [hc])
theorem repaired_copy : repaired.copyPage (pageAddr 8 9) (pageAddr 0 2) = repaired := by
  unfold State.copyPage
  exact foldl_fixed _ _ _ fun i hi => repaired_grain i (List.mem_range.mp hi)
theorem weight_restored : weightOut.restoreWeight = ({ repaired with tiers := (repaired.setTier 0 { repaired.tier 0 with pages := [] }).tiers } : State).modLaurel fun l => { l with waitPage := none, replayDue := true, wantBoundary := true } := by
  have h : weightOut.autoRepair 0 2 = some 9 := by decide +kernel
  have w : weightOut.laurel.waitPage = some (0, 2) := by decide +kernel
  have b : (!weightOut.isReady || weightOut.laurel.serving != 1 || (weightOut.tier 0).page 2 != 2) = false := by decide +kernel
  have c := repaired_copy
  unfold repaired at c
  simp only [State.restoreWeight, h, w, b, Bool.false_eq_true, if_false]
  rw [c]
  rfl
theorem test_weight_meets : weightOut.noConv ∧ weightOut.noWait weightOut.restoreWeight ∧ weightOut.restoreWeight.laurel.waitPage = none ∧ (weightOut.restoreWeight.tier 0).page 2 = 0 := by
  refine ⟨State.noConv_of_tiers (by decide +kernel), ?_⟩
  unfold State.noWait
  rw [weight_restored]
  decide +kernel

end Sys2Proof.Tests
end

section
/-!
SUPPORT. How a command ends: every outcome of the dispatch is one of seven endings of Machine/Ops.lean, each of which answers a next state and puts
the queue back as it was. An ending of the working parts (`State.inner`) waits for nothing when what it ends has left the command's accounts alone.
-/

namespace Sys2Proof.Machine

/-- An outcome that is a next state in which the commands that wait are those of `s`. -/
def State.endsKeepingQueue (s : State) (o : Host.Outcome State Fault Refusal) : Prop := ∃ t, o = .next t ∧ t.pending = s.pending

theorem State.still_endsKeepingQueue (s s' : State) : s.endsKeepingQueue (s.still s') := ⟨_, rfl, rfl⟩
theorem State.timed_endsKeepingQueue (s s' : State) : s.endsKeepingQueue (s.timed s') := ⟨_, rfl, rfl⟩
theorem State.fanned_endsKeepingQueue (s s' : State) : s.endsKeepingQueue (s.fanned s') := ⟨_, rfl, rfl⟩
theorem State.ported_endsKeepingQueue (s s' : State) : s.endsKeepingQueue (s.ported s') := ⟨_, rfl, rfl⟩
theorem State.rested_endsKeepingQueue (s s' : State) : s.endsKeepingQueue (s.rested s') := ⟨_, rfl, rfl⟩
theorem State.served_endsKeepingQueue (s s' : State) : s.endsKeepingQueue (s.served s') := ⟨_, rfl, rfl⟩
theorem State.inner_endsKeepingQueue (s s' : State) : s.endsKeepingQueue (s.inner s') := ⟨_, rfl, rfl⟩

/-- Every arm of the dispatch is one of the endings: those of power, resets and the timebase, those of the island's dictionary, log and links, and,
for every other command, the ending of the working parts. -/
theorem exec_endsKeepingQueue (c : Instr) (s : State) : s.endsKeepingQueue (exec c s) := by
  cases c with
  | coldStart | warmStart | timebaseTick => exact s.timed_endsKeepingQueue _
  | powerApplied | inputLockout | overvoltageLockoutRelease | alwaysOnRailLoss | pwrPresOpen | pwrPresClose | moduleReset | moduleResetRelease
  | corePowerGoodLoss | regulatorFault | channelConversion | measurementRoundEnd => exact s.still_endsKeepingQueue _
  | portReset | perstDeassert => exact s.ported_endsKeepingQueue _
  | storedWriteDone => exact s.fanned_endsKeepingQueue _
  | reportDone | idleEnter | privetDozeEnter => exact s.rested_endsKeepingQueue _
  | inputLowExcursion | hedgerowLinkUp | hedgerowLinkDown | mailboxRead | mailboxWrite | dictionaryServe | hedgerowFrame | readReq | writeReq
  | describeReq | handoverReq | probe | noticeAck | sweep | noticeResend | eventIntake => exact s.served_endsKeepingQueue _
  | _ => exact s.inner_endsKeepingQueue _

/-! ## The ending of the working parts -/

/-- The state in which a command of the working parts ends that has made `s'` of `s` and has nothing to wait for. -/
def State.innerEnd (s s' : State) : State := { s' with pending := s.pending, ts := s.ts, power := s.powerAfter s', hk := s.hk }

/-- A command that owes no more than before it, and meets no page in conversion and no scratchpad, waits for nothing. -/
theorem State.inner_eq {s s' : State} (ha : s'.acct = s.acct) (hb : s'.blocked = s.blocked) : s.inner s' = .next (s.innerEnd s') := by
  have hsettle : s.settle s' = s' := by
    unfold State.settle
    rw [ha]
    by_cases h : s.acct = {} <;> simp [h]
  have hwaits : (s'.blocked && !s.blocked) = false := by simp [hb]
  simp [State.inner, hsettle, State.unlessBlocked, hwaits, State.innerEnd]

/-- What a command of the working parts answers, from what its meaning makes of the state. -/
theorem answers_of_inner {c : Instr} {s s' : State} {P : State → Prop} (hc : exec c s = s.inner s') (ha : s'.acct = s.acct)
    (hb : s'.blocked = s.blocked) (h : P (s.innerEnd s')) : answers c s P :=
  ⟨_, by rw [hc, State.inner_eq ha hb], h⟩

end Sys2Proof.Machine
end

section
/-!
SUPPORT. The machine's step and its commands (00 R8): O1 and O2.
-/

namespace Sys2Proof.Machine

/-- Settles O2: each command ends in one of the seven endings, and all of them go on with the queue as it was. -/
theorem everyCommandGoesOn : Obligations.EveryCommandGoesOn := fun c s => exec_endsKeepingQueue c s

/-- Settles O1, by the two cases of the queue. -/
theorem stepRunsFrontCommand : Obligations.StepRunsFrontCommand := by
  refine ⟨fun c r s => rfl, fun s hs => ?_⟩
  unfold step
  rw [hs]

end Sys2Proof.Machine
end

section
/-!
SUPPORT. Register accesses, form by form (10 R318 to R324): what a host reaches, what the tiles' registers do, and what ends in an error.
-/

namespace Sys2Proof.Machine

/-! ## Bits and bytes -/

/-- Write-one-to-clear: subtracting the bits that two numbers share clears those of the second in the first. -/
theorem testBit_sub_and (x y b : Nat) : (x - (x &&& y)).testBit b = (x.testBit b && !y.testBit b) := by
  induction b generalizing x y with
  | zero =>
    have hle : x &&& y ≤ x := Nat.and_le_left
    have hodd : (x &&& y) % 2 = 1 ↔ x % 2 = 1 ∧ y % 2 = 1 := Nat.and_mod_two_eq_one
    rw [Nat.testBit_zero, Nat.testBit_zero, Nat.testBit_zero, Bool.eq_iff_iff]
    simp only [decide_eq_true_eq, Bool.and_eq_true, Bool.not_eq_true', decide_eq_false_iff_not]
    omega
  | succ b ih =>
    have hle : x &&& y ≤ x := Nat.and_le_left
    have hodd : (x &&& y) % 2 = 1 ↔ x % 2 = 1 ∧ y % 2 = 1 := Nat.and_mod_two_eq_one
    have hhalf : (x - (x &&& y)) / 2 = x / 2 - (x / 2 &&& y / 2) := by
      have := Nat.and_div_two (a := x) (b := y)
      omega
    rw [Nat.testBit_add_one, hhalf, ih, ← Nat.testBit_add_one, ← Nat.testBit_add_one]

/-- The low `n` bits of a register written as a 32-bit half clear those of a status register. -/
theorem testBit_sub_and_low {n : Nat} (hn : n ≤ 32) (x v b : Nat) :
    (x - (x &&& (v % 2 ^ 32 % 2 ^ n))).testBit b = (x.testBit b && !(decide (b < n) && v.testBit b)) := by
  rw [testBit_sub_and, Nat.mod_mod_of_dvd _ (Nat.pow_dvd_pow 2 hn), Nat.testBit_mod_two_pow]

theorem length_leBytes (n v : Nat) : (leBytes n v).length = n := by
  induction n generalizing v with
  | zero => rfl
  | succ n ih => simp [leBytes, ih]

theorem leNat_leBytes (n v : Nat) : leNat (leBytes n v) = v % 256 ^ n := by
  induction n generalizing v with
  | zero => simp [leBytes, leNat, Nat.mod_one]
  | succ n ih => simp [leBytes, leNat, ih, Nat.pow_succ', Nat.mod_mul]

/-! ## What a host reaches -/

/-- A function in D3hot is out of reach (log 86). -/
theorem State.reach_of_d3hot {s : State} {p : PortId} {f : Nat} (h : (s.fn p f).d3hot = true) : s.reach p f = false := by
  simp [State.reach, h]

/-- A request to a function in D3hot is noted as unsupported. -/
theorem State.unsupported_d3hot {s : State} {p : PortId} {f : Nat} (hu : s.fnUp p f = true) (hd : (s.fn p f).d3hot = true) (read : Bool) :
    s.unsupported p f read = if read then (s.aer p f 20).emit (.completion p 2 [] false) else s.aer p f 20 := by
  simp [State.unsupported, hu, hd]

theorem State.registerWrite_window {s : State} {p : PortId} (h : s.reach p 0 = true) (off n : Nat) (v : Word64) :
    s.registerWrite (.window p off) n v = if aligned off n && decide (off < 0x10000000) then s.windowWrite (.host p) off n v.toNat else s := by
  simp [State.registerWrite, h]

theorem State.registerRead_window {s : State} {p : PortId} (h : s.reach p 0 = true) (off n : Nat) :
    s.registerRead (.window p off) n = if aligned off n && decide (off < 0x10000000) then s.windowRead p off n else s.abortRead p 0 := by
  simp [State.registerRead, h]

/-- A 32-bit write in reach of a function block. -/
theorem State.registerWrite_block {s : State} {p : PortId} {f : FnId} (h : s.reach p f.val = true) {off : Nat} (ha : off % 4 = 0)
    (hl : off < 0x10000) (v : Word64) : s.registerWrite (.block p f off) 4 v = s.blockWrite32 p f off (v.toNat % 2 ^ 32) (v.toNat % 2 ^ 32) := by
  simp [State.registerWrite, h, aligned, ha, hl, State.blockWrite]

theorem State.registerWrite_config {s : State} {p : PortId} {f : FnId} (h : s.fnUp p f.val = true) (off n : Nat) (v : Word64) :
    s.registerWrite (.config p f off) n v = s.configWrite p f.val off (v.toNat % 2 ^ 32) := by
  simp [State.registerWrite, h]

/-- A word of configuration space is read. -/
theorem State.registerRead_config {s : State} {p : PortId} {f : FnId} (h : s.fnUp p f.val = true) {off w : Nat} (hw : s.configWord p f.val off = some w)
    (n : Nat) : s.registerRead (.config p f off) n = s.emit (.completion p 0 (leBytes 4 w) false) := by
  simp [State.registerRead, h, hw]

end Sys2Proof.Machine
end

section
/-!
SUPPORT. The registers of a tile in the die control window, as a host and an agent of the die meet them (03 R103, R138; 10 R320, R322).
-/

namespace Sys2Proof.Machine

/-- TILE_FAULT with the bits of `v` cleared (03 R103). -/
def Tile.clearFault (t : Tile) (v : Nat) : Tile := { t with ctl := { t.ctl with fault := t.ctl.fault - (t.ctl.fault &&& (v % 2 ^ 4)) } }

/-- A tile one of whose counters has been cleared by its read. -/
def Tile.clearCount (t : Tile) (off : Nat) : Tile := { t with ctl := { t.ctl with cnt := SMap.set 0 t.ctl.cnt off 0 } }

@[simp] theorem Tile.count_clearCount_self (t : Tile) (off : Nat) : (t.clearCount off).count off = 0 := SMap.get_set_self _ _ _ _

theorem Tile.count_clearCount_ne (t : Tile) {off o : Nat} (h : o ≠ off) : (t.clearCount off).count o = t.count o := SMap.get_set_ne _ _ _ _ h

/-- The read-clear counters of a tile: HOLD_LONGEST, those at 0x130 to 0x13C, the scope mismatches and the poisoned reads (03 R103, 04 R138). -/
def readClear (off : Nat) : Prop := off = 0x110 ∨ (0x130 ≤ off ∧ off ≤ 0x13C ∧ off % 4 = 0) ∨ off = 0x160 ∨ off = 0x168

theorem readClear_lt {off : Nat} (h : readClear off) : off < 0x200 ∧ off % 4 = 0 := by
  unfold readClear at h
  omega

theorem Tile.read32_readClear (t : Tile) (n : Nat) {off : Nat} (h : readClear off) : t.read32 n off = (t.count off, t.clearCount off) := by
  have h' : off = 0x110 ∨ (0x130 ≤ off ∧ off ≤ 0x13C) ∨ off = 0x160 ∨ off = 0x168 := by
    unfold readClear at h
    omega
  unfold Tile.read32
  exact if_pos h'

/-- The tile's part of the die control window, as read. -/
theorem State.window32_tile (s : State) (t : TileId) {off : Nat} (h : off < 0x200) :
    s.window32 (0x1000 * t.val + off) =
      some (⟨leBytes 4 ((s.tile t.val).read32 t.val off).1, false⟩, s.setTile t.val ((s.tile t.val).read32 t.val off).2) := by
  have ht := t.isLt
  have hdiv : (0x1000 * t.val + off) / 0x1000 = t.val := by omega
  have hmod : (0x1000 * t.val + off) % 0x1000 = off := by omega
  have hlt : 0x1000 * t.val + off < 0x80000 := by omega
  simp only [State.window32, hdiv, hmod, if_pos hlt, if_pos h]

/-- Nothing is mapped from 0x7000000 on. -/
theorem State.window32_unmapped (s : State) {off : Nat} (h : 0x7000000 ≤ off) : s.window32 off = none := by
  unfold State.window32
  rw [if_neg (by omega), if_neg (by omega), if_neg (by omega), if_neg (by omega), if_neg (by omega)]

/-- A host's 32-bit read below the units' buffers. -/
theorem State.windowRead_word {s s' : State} {p : PortId} {off : Nat} {x : Piece} (hl : off < 0x5000000) (h : s.window32 off = some (x, s')) :
    s.windowRead p off 4 = s'.emit (.completion p 0 x.bytes x.poison) := by
  unfold State.windowRead
  rw [if_neg (by omega), h]
  rfl

theorem State.windowRead_unmapped (s : State) (p : PortId) {off : Nat} (n : Nat) (h : 0x7000000 ≤ off) : s.windowRead p off n = s.abortRead p 0 := by
  unfold State.windowRead
  rw [if_neg (by omega), s.window32_unmapped h]

/-- A host's read of a read-clear counter returns it and clears it. -/
theorem State.registerRead_readClear {s : State} {p : PortId} (hr : s.reach p 0 = true) (t : TileId) {off : Nat} (h : readClear off) :
    s.registerRead (.window p (0x1000 * t.val + off)) 4 =
      (s.setTile t.val ((s.tile t.val).clearCount off)).emit (.completion p 0 (leBytes 4 ((s.tile t.val).count off)) false) := by
  have ht := t.isLt
  obtain ⟨hlt, h4⟩ := readClear_lt h
  have hin : (aligned (0x1000 * t.val + off) 4 && decide (0x1000 * t.val + off < 0x10000000)) = true := by
    simp [aligned]
    omega
  rw [State.registerRead_window hr, if_pos hin, State.windowRead_word (by omega) (s.window32_tile t hlt), Tile.read32_readClear _ _ h]

/-- A host's read of the window that is misaligned or meets nothing ends in Completer Abort. -/
theorem State.registerRead_aborts {s : State} {p : PortId} (hr : s.reach p 0 = true) {off n : Nat} (h : aligned off n = false ∨ 0x7000000 ≤ off) :
    s.registerRead (.window p off) n = s.abortRead p 0 := by
  rw [State.registerRead_window hr]
  rcases h with h | h
  · simp [h]
  · rw [s.windowRead_unmapped p n h, ite_self]

/-! ## TILE_FAULT -/

/-- A 32-bit write of TILE_FAULT, by the steward's port or from the die. -/
theorem State.windowWrite_tileFault (s : State) {who : Writer} (hw : ∀ p, who = .host p → p = s.stew.port) (t : TileId) (v : Nat) :
    s.windowWrite who (0x1000 * t.val + 0x18) 4 v = s.work t.val fun w => { w with t := w.t.clearFault (v % 2 ^ 32) } := by
  have ht := t.isLt
  have hdiv : (0x1000 * t.val + 0x18) / 0x1000 = t.val := by omega
  have hmod : (0x1000 * t.val + 0x18) % 0x1000 = 0x18 := by omega
  have hlt : 0x1000 * t.val + 0x18 < 0x80000 := by omega
  cases who with
  | die => simp [State.windowWrite, hdiv, hmod, hlt, Work.write32, Tile.clearFault]
  | host p => simp [State.windowWrite, hdiv, hmod, hlt, Work.write32, Tile.clearFault, hw p rfl]

/-- Of the other port it is counted in OD 0x4200.02 (10 R343). -/
theorem State.windowWrite_tile_other (s : State) {p : PortId} (hp : p ≠ s.stew.port) (t : TileId) {off : Nat} (h : off < 0x200) (n v : Nat) :
    s.windowWrite (.host p) (0x1000 * t.val + off) n v = s.modCount 0x4200 2 1 := by
  have ht := t.isLt
  have hmod : ¬ 0x200 ≤ (0x1000 * t.val + off) % 0x1000 := by omega
  have hlt : 0x1000 * t.val + off < 0x80000 := by omega
  have hother : (p != s.stew.port) = true := by simpa using hp
  simp only [State.windowWrite, if_pos hlt, if_neg hmod, hother, if_true]

/-- What clearing TILE_FAULT makes of the state: no event, no access, no end of a kernel. -/
theorem State.work_clearFault (s : State) (t v : Nat) :
    (s.work t fun w => { w with t := w.t.clearFault v }) =
      { s.setTile t ((s.tile t).clearFault v) with totals := { s.totals with parity := satAdd 32 s.totals.parity 0 } } := by
  simp [State.work, State.fromWork, State.begin, State.postAll, Tile.clearFault]

end Sys2Proof.Machine
end

section
/-!
SUPPORT. Register accesses of the die's own agents, which meet their registers at their homes (07 R207, 09 R285).
-/

namespace Sys2Proof.Machine

theorem State.ready_txn? {s : State} {id : Nat} {want : TxKind → Bool} {q : Txn} (h : s.ready id want = some q) : s.txn? id = some q := by
  unfold State.ready at h
  exact (Option.filter_eq_some_iff.mp h).1

theorem State.txn?_id {s : State} {id : Nat} {q : Txn} (h : s.txn? id = some q) : q.id = id := by
  simpa using List.find?_some h

/-- A response changes the accesses in flight alone. -/
theorem State.respond_frame (s : State) (id : Nat) (data : Piece) (status : Nat) (unchecked : Bool) (tag : Option RelTag) :
    s.respond id data status unchecked tag = { s with txns := (s.respond id data status unchecked tag).txns } := by
  unfold State.respond
  split
  · rfl
  · dsimp only
    split <;> rfl

/-- An access in flight with no status of its own is answered with its home's. -/
theorem State.respond_answered {s : State} {id : Nat} {q : Txn} (h : s.txn? id = some q) (hq : q.status = 0) (data : Piece) (status : Nat)
    (unchecked : Bool) (tag : Option RelTag) : answeredWith (s.respond id data status unchecked tag) id data status := by
  have hid := State.txn?_id h
  unfold answeredWith State.respond
  simp only [h, hq]
  split
  · exact ⟨_, List.mem_append_right _ (List.mem_singleton_self _), hid, rfl, rfl, rfl⟩
  · exact ⟨_, List.mem_append_right _ (List.mem_singleton_self _), hid, rfl, rfl, rfl⟩

/-- A command that makes `x` of the state and answers access `id`: what holds of the tiles of `x` holds once it is answered. -/
theorem answers_of_respond {c : Instr} {s x : State} {id : Nat} {q : Txn} {data : Piece} {P : State → Prop}
    (hc : exec c s = s.inner (x.respond id data 0 false none)) (hq : s.txn? id = some q) (hst : q.status = 0) (hx : x.txns = s.txns)
    (ha : x.acct = s.acct) (hb : x.blocked = s.blocked) (hP : ∀ u : State, u.tiles = x.tiles → P u) :
    answers c s fun u => P u ∧ answeredWith u id data 0 := by
  have hframe := x.respond_frame id data 0 false none
  have hxq : x.txn? id = some q := by
    unfold State.txn?
    rw [hx]
    exact hq
  have htiles : (s.innerEnd (x.respond id data 0 false none)).tiles = x.tiles := by
    show (x.respond id data 0 false none).tiles = x.tiles
    rw [hframe]
  refine answers_of_inner hc ((congrArg State.acct hframe).trans ha) ((congrArg State.blocked hframe).trans hb)
    ⟨hP _ htiles, State.respond_answered hxq hst data 0 false none⟩

/-- Offsets below the units' command registers are no unit's. -/
theorem unitRegAt_of_lt {a off : Nat} (h : placeOf a = .control off) (hl : off < 0x4000000) : unitRegAt a = none := by
  simp only [unitRegAt, h]
  rw [if_neg (by omega)]

/-- An aligned word is written as one 32-bit write. -/
theorem State.dieWrite_word (s : State) {off : Nat} {d : List Byte} (ho : off % 4 = 0) (hd : d.length = 4) :
    s.dieWrite off d = s.windowWrite .die off 4 (leNat d) := by
  have hc : cdiv off 4 = off / 4 := by unfold cdiv; omega
  have ho' : 4 * (off / 4) = off := by omega
  have hfield : fieldAt d (off - off) 4 = leNat d := by
    rw [fieldAt, Nat.sub_self, List.drop_zero, List.take_of_length_le (by omega)]
  simp [State.dieWrite, hd, hc, ho', ← hfield]

/-- A write of an agent of the die to a register below the units' that it finds at its home. -/
theorem State.dieRegister_word {s : State} {id off : Nat} {q : Txn} (hq : s.ready id (· == .write) = some q) (hp : placeOf q.dest.addr = .control off)
    (hl : off < 0x4000000) (ho : off % 4 = 0) (hd : q.data.bytes.length = 4) :
    s.dieRegister id = (s.windowWrite .die off 4 (leNat q.data.bytes)).respond id {} 0 false none := by
  have hown : ownRow off 4 = false := by
    have h1 : ¬ laurelBase ≤ off := by unfold laurelBase; omega
    have h2 : ¬ 0x4000000 ≤ off := by omega
    have h3 : ¬ 0x4100000 ≤ off := by omega
    have h4 : ¬ 0x5000000 ≤ off := by omega
    simp [ownRow, h1, h2, h3, h4]
  simp only [State.dieRegister, hq, hp, hd, hown, unitRegAt_of_lt hp hl, s.dieWrite_word ho hd]
  rfl

/-- A read of a word below the units' buffers by an agent of the die. -/
theorem State.controlRead_word {s s' : State} {off : Nat} {d : List Byte} (hl : off < 0x5000000) (ho : off % 4 = 0) (hd : d.length = 4)
    (h : s.window32 off = some (⟨d, false⟩, s')) : s.controlRead off 4 = (⟨d, false⟩, 0, s') := by
  have hlo : off / 4 * 4 = off := by omega
  have htake : d.take 4 = d := List.take_of_length_le (by omega)
  unfold State.controlRead
  rw [if_neg (by unfold laurelBase; omega), if_neg (by omega)]
  simp [hlo, h, ho, htake]

/-- A read-clear counter read by an agent of the die. -/
theorem State.homeRead_readClear {s : State} {id off : Nat} {q : Txn} {t : TileId} (hq : s.ready id (· == .read) = some q)
    (hp : placeOf q.dest.addr = .control (0x1000 * t.val + off)) (hn : q.len = 4) (h : readClear off) :
    s.homeRead id {} =
      (s.setTile t.val ((s.tile t.val).clearCount off)).respond id ⟨leBytes 4 ((s.tile t.val).count off), false⟩ 0 false none := by
  have ht := t.isLt
  obtain ⟨hlt, h4⟩ := readClear_lt h
  have hw := s.window32_tile t hlt
  rw [Tile.read32_readClear _ _ h] at hw
  have hread := State.controlRead_word (by omega) (by omega) (length_leBytes _ _) hw
  have herr : s.laurelErr (0x1000 * t.val + off) {} = s := by
    unfold State.laurelErr
    rw [if_neg (by unfold laurelBase; omega)]
  simp only [State.homeRead, hq, hp, herr, hn, hread]

end Sys2Proof.Machine
end

section
/-!
SUPPORT. What the end of a virtual function leaves alone (10 R319, R353): the assignment of queues, the number of functions, and the accounts of the command.
-/

namespace Sys2Proof.Machine

/-- `t` has the functions of `s`, with the queues assigned to them, and the accounts of its command. -/
structure State.SameFns (s t : State) : Prop where
  acct : t.acct = s.acct
  blocked : t.blocked = s.blocked
  numVfs : ∀ p, (t.port p).numVfs = (s.port p).numVfs
  qBase : ∀ p f, (t.fn p f).qBase = (s.fn p f).qBase
  qCount : ∀ p f, (t.fn p f).qCount = (s.fn p f).qCount

theorem State.SameFns.refl (s : State) : s.SameFns s := ⟨rfl, rfl, fun _ => rfl, fun _ _ => rfl, fun _ _ => rfl⟩

theorem State.SameFns.trans {s t u : State} (h : s.SameFns t) (h' : t.SameFns u) : s.SameFns u :=
  ⟨h'.acct.trans h.acct, h'.blocked.trans h.blocked, fun p => (h'.numVfs p).trans (h.numVfs p), fun p f => (h'.qBase p f).trans (h.qBase p f),
    fun p f => (h'.qCount p f).trans (h.qCount p f)⟩

/-- A change of something else than the ports. -/
theorem State.SameFns.of_ports {s t : State} (ha : t.acct = s.acct) (hb : t.blocked = s.blocked) (hp : t.ports = s.ports) : s.SameFns t := by
  have hport : ∀ p, t.port p = s.port p := fun p => by simp only [State.port, hp]
  have hfn : ∀ p f, t.fn p f = s.fn p f := fun p f => by simp only [State.fn, hport]
  exact ⟨ha, hb, fun p => by rw [hport], fun p f => by rw [hfn], fun p f => by rw [hfn]⟩

/-- A change of the parts of the state that hold a function's work: kernels and their streams, accesses, operations, queues, Laurel's tables and the
drain, tiles, units and tiers, requests to the dictionary. -/
theorem State.SameFns.withWork {s t : State} (h : s.SameFns t) {tiles : SMap Tile} {hedges : SMap Hedge} {pkts : List LaunchPkt}
    {notices : List EndNotice} {txns : List Txn} {tiers : SMap Tier} {units : SMap PUnit} {laurel : Laurel} {drain : Drain} {queues : SMap QPair}
    {reads : List HostRead} {ops : List HostOp} {dictQ : List DictReq} {stored : List StoredWrite} {model : Option Model} :
    s.SameFns { t with tiles := tiles, hedges := hedges, launchPkts := pkts, notices := notices, txns := txns, tiers := tiers, units := units
                       laurel := laurel, drain := drain, queues := queues, hostReads := reads, ops := ops, dictQ := dictQ, stored := stored
                       model := model } :=
  h.trans (.of_ports rfl rfl rfl)

/-- A fold of changes of something else than the functions. -/
theorem State.SameFns.foldl {α : Type} {f : State → α → State} (hf : ∀ (s : State) a, s.SameFns (f s a)) (l : List α) (s : State) :
    s.SameFns (l.foldl f s) :=
  foldl_rel State.SameFns.refl State.SameFns.trans hf l s

variable (s : State)

theorem State.fn_setPort_ne {p q : PortId} (x : Port) (h : q ≠ p) (f : Nat) : (s.setPort p x).fn q f = s.fn q f := by
  simp only [State.fn, State.port_setPort_ne s x h]

theorem State.fn_setFn_ne {p q : PortId} {f g : Nat} (x : Fn) (h : ¬(q = p ∧ g = f)) : (s.setFn p f x).fn q g = s.fn q g := by
  by_cases hq : q = p
  · subst hq
    simp only [State.fn, State.setFn, State.modPort, State.port_setPort]
    exact SMap.get_set_ne _ _ _ _ fun hg => h ⟨rfl, hg⟩
  · exact s.fn_setPort_ne _ hq g

theorem State.port_setFn_numVfs (p q : PortId) (f : Nat) (x : Fn) : ((s.setFn p f x).port q).numVfs = (s.port q).numVfs := by
  by_cases hq : q = p
  · subst hq
    simp only [State.setFn, State.modPort, State.port_setPort]
  · exact congrArg Port.numVfs (s.port_setPort_ne _ hq)

/-- What a function's new state has in common with its old one, every function keeps. -/
theorem State.fn_setFn_proj {α : Type} (g : Fn → α) {p : PortId} {f : Nat} {x : Fn} (hx : g x = g (s.fn p f)) (q : PortId) (k : Nat) :
    g ((s.setFn p f x).fn q k) = g (s.fn q k) := by
  by_cases h : q = p ∧ k = f
  · obtain ⟨rfl, rfl⟩ := h
    rw [State.fn_setFn, hx]
  · rw [s.fn_setFn_ne x h]

/-- A function's state changes, its assignment not. -/
theorem State.sameFns_setFn {p : PortId} {f : Nat} {x : Fn} (hb : x.qBase = (s.fn p f).qBase) (hc : x.qCount = (s.fn p f).qCount) :
    s.SameFns (s.setFn p f x) :=
  ⟨rfl, rfl, fun q => s.port_setFn_numVfs p q f x, s.fn_setFn_proj Fn.qBase hb, s.fn_setFn_proj Fn.qCount hc⟩

theorem State.sameFns_msix (p : PortId) (f v : Nat) : s.SameFns (s.msix p f v) := by
  unfold State.msix
  split
  · exact .refl s
  · split
    · exact s.sameFns_setFn rfl rfl
    · exact .of_ports rfl rfl rfl

theorem State.sameFns_fnEvent (p : PortId) (f bit : Nat) : s.SameFns (s.fnEvent p f bit) := by
  unfold State.fnEvent
  split
  · exact .refl s
  · have hset : s.SameFns (s.setFn p f { s.fn p f with event := (s.fn p f).event ||| 2 ^ bit }) := s.sameFns_setFn rfl rfl
    dsimp only
    split
    · exact hset.trans (State.sameFns_msix _ p f 0)
    · exact hset

/-! ## The end of a function's work -/

theorem State.sameFns_post (e : Ev) : s.SameFns (s.post e) := by
  rw [State.post_frame]
  exact .of_ports rfl rfl rfl

theorem State.sameFns_fromWork (t : Nat) (w : Work) : s.SameFns (s.fromWork t w) := by
  rw [State.fromWork_frame]
  exact .of_ports rfl rfl rfl

theorem State.sameFns_work (t : Nat) (f : Work → Work) : s.SameFns (s.work t f) := s.sameFns_fromWork t _

theorem State.sameFns_faultIn (l code t : Nat) : s.SameFns (s.faultIn l code t) := by
  unfold State.faultIn
  split
  · exact .refl s
  · dsimp only
    split
    · exact (State.SameFns.trans (State.SameFns.refl s).withWork (State.sameFns_work _ t _)).withWork
    · split
      · exact (State.SameFns.refl s).withWork
      · exact (State.SameFns.trans (State.SameFns.refl s).withWork (State.sameFns_post _ _)).withWork

theorem State.sameFns_abortLaunch (l : Nat) : s.SameFns (s.abortLaunch l) := by
  unfold State.abortLaunch
  split
  · exact .refl s
  · dsimp only
    refine .trans (.withWork (.trans (.withWork (.refl s)) (.foldl (fun s h => ?_) _ _))) (.foldl (fun s t => s.sameFns_faultIn l 9 t) _ _)
    exact (State.SameFns.refl s).withWork

theorem State.sameFns_endLaunches (mine : HostOp → Bool) : s.SameFns (s.endLaunches mine) :=
  .foldl (fun s l => s.sameFns_abortLaunch l) _ s

theorem State.sameFns_blurMem (a n : Nat) : s.SameFns (s.blurMem a n) := by
  unfold State.blurMem
  split
  · exact (State.SameFns.refl s).withWork
  · exact .refl s

theorem State.sameFns_clearModel : s.SameFns s.clearModel := by
  refine State.SameFns.withWork (.trans (.foldl (fun s t => ?_) _ s) (.foldl (fun s u => ?_) _ _))
  · exact (State.SameFns.refl s).withWork
  · exact (State.SameFns.refl s).withWork

theorem State.sameFns_haltCores : s.SameFns s.haltCores := .foldl (fun s t => s.sameFns_work t _) _ s

theorem State.sameFns_imageFailed (img : List Byte) : s.SameFns (s.imageFailed img) := by
  have hblur := State.SameFns.foldl (fun s (x : Sect) => s.sameFns_blurMem x.dest x.len) ((sectsOf img).filter fun x => x.ty == 4 || x.ty == 5) s
  exact (hblur.trans (State.sameFns_haltCores _)).trans (State.sameFns_clearModel _)

theorem State.sameFns_queueError (q code : Nat) : s.SameFns (s.queueError q code) := by
  have hset : s.SameFns (s.modQueue q fun x => { x with state := 3, error := code }) := (State.SameFns.refl s).withWork
  unfold State.queueError
  dsimp only
  split
  · exact hset.trans (State.sameFns_fnEvent _ _ _ _)
  · exact hset

theorem State.sameFns_tailAt (q v : Nat) : s.SameFns (s.tailAt q v) := by
  unfold State.tailAt
  split
  · exact s.sameFns_queueError q 2
  · exact (State.SameFns.refl s).withWork

theorem State.sameFns_unlatch : s.SameFns s.unlatch := by
  refine .foldl (fun s q => ?_) _ s
  split
  · exact State.SameFns.trans (State.SameFns.refl s).withWork (State.sameFns_tailAt _ q _)
  · exact .refl s

theorem State.sameFns_releaseBoundary : s.SameFns s.releaseBoundary := by
  unfold State.releaseBoundary
  refine .trans (.trans (.withWork (.refl s)) (State.sameFns_unlatch _)) (.foldl (fun s id => ?_) _ _)
  exact (State.SameFns.refl s).withWork

theorem State.sameFns_dropDrain (id : Nat) : s.SameFns (s.dropDrain id) := by
  unfold State.dropDrain
  dsimp only
  split
  · split
    · exact State.SameFns.trans (State.SameFns.refl s).withWork (State.sameFns_releaseBoundary _)
    · exact (State.SameFns.refl s).withWork
  · exact .refl s

theorem State.sameFns_endOps (mine : HostOp → Bool) : s.SameFns (s.endOps mine) := by
  have hloads := State.SameFns.foldl (fun s (o : HostOp) => s.sameFns_imageFailed o.image)
    ((s.ops.filter mine).filter fun o => o.opcode == 6 && o.stage == .running) s
  have hdrains := State.SameFns.foldl (fun s (o : HostOp) => s.sameFns_dropDrain o.id)
    ((s.ops.filter mine).filter fun o => !(o.opcode == 7 && o.stage == .running))
  exact (hloads.trans (hdrains _)).withWork

/-- A function takes a new state with the queues that it had. -/
theorem State.SameFns.setFn {s t : State} (h : s.SameFns t) {p : PortId} {f : Nat} {x : Fn} (hb : x.qBase = (s.fn p f).qBase)
    (hc : x.qCount = (s.fn p f).qCount) : s.SameFns (t.setFn p f x) :=
  h.trans (t.sameFns_setFn (hb.trans (h.qBase p f).symm) (hc.trans (h.qCount p f).symm))

theorem State.sameFns_orphan (hit : PortId → Nat → Bool) : s.SameFns (s.orphan hit) := (State.SameFns.refl s).withWork

/-- A function's reset keeps what it is assigned (10 R353). -/
theorem State.sameFns_resetFn (p : PortId) (f : Nat) : s.SameFns (s.resetFn p f) := by
  have hends := (s.sameFns_endLaunches fun o => o.port == p && o.fn == f).trans (State.sameFns_endOps _ fun o => o.port == p && o.fn == f)
  unfold State.resetFn
  refine .trans (.setFn (.trans hends.withWork (.foldl (fun s q => ?_) _ _)) ?_ ?_) (State.sameFns_orphan _ _)
  · exact (State.SameFns.refl s).withWork
  · rfl
  · rfl

/-- A port's settings with VF Enable and NumVFs written, and `n` VFs. -/
def Port.withVfs (x : Port) (enable : Bool) (v n : Nat) : Port := { x with vfEnable := enable, vfNum := v, numVfs := n }

/-- VFs come to exist or cease to: those that cease are reset, and then the port's settings are written. -/
theorem State.setVfs_eq (p : PortId) (enable : Bool) (v : Nat) : ∃ t, s.SameFns t ∧ s.setVfs p enable v =
    t.setPort p ((t.port p).withVfs enable v (if enable then min v (min 15 ((s.port p).trained.getD 3 15)) else 0)) :=
  ⟨_, .foldl (fun s f => s.sameFns_resetFn p f) _ s, rfl⟩

/-- A port's own settings are no function's. -/
theorem State.fn_setPort_withVfs (p q : PortId) (enable : Bool) (v n f : Nat) :
    (s.setPort p ((s.port p).withVfs enable v n)).fn q f = s.fn q f := by
  by_cases hq : q = p
  · subst hq
    simp only [State.fn, State.port_setPort, Port.withVfs]
  · exact s.fn_setPort_ne _ hq f

end Sys2Proof.Machine
end

section
/-!
SUPPORT. Register writes and read-clear reads (00 R8; 10 R318 to R324): the answer to each form of access, and O32.
-/

namespace Sys2Proof.Machine

section

variable {s : State} {p : PortId} (v : Word64)

/-! ## Function blocks -/

/-- FN_EVENT_EN takes bits 0 to 6. -/
theorem registerWrite_fnEventEn {f : FnId} (h : s.reach p f.val = true) :
    answers (.registerWrite (.block p f 0x10) 4 v) s fun u =>
      u = { s.setFn p f.val { s.fn p f.val with eventEn := v.toNat % 128 } with power := u.power } := by
  have hw : s.registerWrite (.block p f 0x10) 4 v = s.setFn p f.val { s.fn p f.val with eventEn := v.toNat % 128 } := by
    rw [State.registerWrite_block h rfl (by omega), ← Nat.mod_mod_of_dvd v.toNat (show 128 ∣ 2 ^ 32 by decide)]
    rfl
  exact answers_of_inner (congrArg s.inner hw) rfl rfl rfl

/-- A 1 written to a bit of FN_EVENT clears it. -/
theorem registerWrite_fnEvent {f : FnId} (h : s.reach p f.val = true) :
    answers (.registerWrite (.block p f 8) 4 v) s fun u =>
      ∀ b, (u.fn p f.val).event.testBit b = ((s.fn p f.val).event.testBit b && !(decide (b < 7) && v.toNat.testBit b)) := by
  have hw : s.registerWrite (.block p f 8) 4 v =
      s.setFn p f.val { s.fn p f.val with event := (s.fn p f.val).event - ((s.fn p f.val).event &&& (v.toNat % 2 ^ 32 % 2 ^ 7)) } := by
    rw [State.registerWrite_block h rfl (by omega)]
    rfl
  refine answers_of_inner (congrArg s.inner hw) rfl rfl fun b => ?_
  show ((State.setFn s p f.val _).fn p f.val).event.testBit b = _
  rw [State.fn_setFn]
  exact testBit_sub_and_low (by omega) _ _ b

/-- A read of MBOX_STATUS returns it and clears its overrun. -/
theorem registerRead_mboxStatus {f : FnId} (h : s.reach p f.val = true) :
    answers (.rcRegisterRead (.block p f 0x408) 4) s fun u => (u.fn p f.val).mbox = { (s.fn p f.val).mbox with overrun := false } ∧
      u.outbox = .completion p 0 (leBytes 4 (b2n (s.fn p f.val).mbox.busy + 2 * b2n (s.fn p f.val).mbox.overrun + 256 * (s.fn p f.val).mbox.status +
        65536 * (s.fn p f.val).mbox.rlength)) false :: s.outbox := by
  have hr : s.registerRead (.block p f 0x408) 4 =
      (s.setFn p f.val { s.fn p f.val with mbox := { (s.fn p f.val).mbox with overrun := false } }).emit (.completion p 0
        (leBytes 4 (b2n (s.fn p f.val).mbox.busy + 2 * b2n (s.fn p f.val).mbox.overrun + 256 * (s.fn p f.val).mbox.status +
          65536 * (s.fn p f.val).mbox.rlength)) false) := by
    simp [State.registerRead, h, aligned, State.blockRead, State.blockRead32]
  refine answers_of_inner (congrArg s.inner hr) rfl rfl ⟨?_, rfl⟩
  exact congrArg Fn.mbox (State.fn_setFn s p f.val _)

/-- A function in D3hot takes no memory request: it is noted as unsupported (log 86). -/
theorem registerWrite_d3hot {f : FnId} (hu : s.fnUp p f.val = true) (hd : (s.fn p f.val).d3hot = true) (off n : Nat) :
    answers (.registerWrite (.block p f off) n v) s fun u => u = { s.aer p f.val 20 with power := u.power } := by
  have hw : s.registerWrite (.block p f off) n v = s.aer p f.val 20 := by
    simp [State.registerWrite, State.reach_of_d3hot hd, State.unsupported_d3hot hu hd]
  exact answers_of_inner (congrArg s.inner hw) rfl rfl rfl

/-- A read of it ends in Unsupported Request besides. -/
theorem registerRead_d3hot {f : FnId} (hu : s.fnUp p f.val = true) (hd : (s.fn p f.val).d3hot = true) (off n : Nat) :
    answers (.rcRegisterRead (.block p f off) n) s fun u =>
      u = { s.aer p f.val 20 with outbox := .completion p 2 [] false :: s.outbox, power := u.power } := by
  have hr : s.registerRead (.block p f off) n = (s.aer p f.val 20).emit (.completion p 2 [] false) := by
    simp [State.registerRead, State.reach_of_d3hot hd, State.unsupported_d3hot hu hd]
  exact answers_of_inner (congrArg s.inner hr) rfl rfl rfl

/-! ## The die control window through a port -/

/-- A misaligned write, or one of another size than 4 or 8 bytes, has no effect. -/
theorem registerWrite_misaligned (h : s.reach p 0 = true) {off n : Nat} (ha : aligned off n = false) :
    answers (.registerWrite (.window p off) n v) s fun u => u = { s with power := u.power } := by
  have hw : s.registerWrite (.window p off) n v = s := by
    rw [State.registerWrite_window h, ha]
    rfl
  exact answers_of_inner (congrArg s.inner hw) rfl rfl rfl

/-- TILE_FAULT through a port is write-one-to-clear, the steward's alone. -/
theorem registerWrite_tileFault (t : TileId) (h : s.reach p 0 = true) :
    answers (.registerWrite (.window p (0x1000 * t.val + 0x18)) 4 v) s fun u =>
      (p = s.stew.port → ∀ b, (u.tile t.val).ctl.fault.testBit b = ((s.tile t.val).ctl.fault.testBit b && !(decide (b < 4) && v.toNat.testBit b))) ∧
      (p ≠ s.stew.port → (u.tile t.val).ctl = (s.tile t.val).ctl ∧
        SMap.get 0 u.modCnt (odKey 0x4200 2) = satAdd 32 (SMap.get 0 s.modCnt (odKey 0x4200 2)) 1) := by
  have ht := t.isLt
  have hin : (aligned (0x1000 * t.val + 0x18) 4 && decide (0x1000 * t.val + 0x18 < 0x10000000)) = true := by
    simp [aligned]
    omega
  have hw : s.registerWrite (.window p (0x1000 * t.val + 0x18)) 4 v = s.windowWrite (.host p) (0x1000 * t.val + 0x18) 4 v.toNat := by
    rw [State.registerWrite_window h, if_pos hin]
  by_cases hp : p = s.stew.port
  · have hc := s.windowWrite_tileFault (who := .host p) (by rintro _ ⟨⟩; exact hp) t v.toNat
    rw [s.work_clearFault] at hc
    refine answers_of_inner (congrArg s.inner (hw.trans hc)) rfl rfl ⟨fun _ b => ?_, fun h => absurd hp h⟩
    show ((s.setTile t.val _).tile t.val).ctl.fault.testBit b = _
    rw [State.tile_setTile]
    exact testBit_sub_and_low (by omega) _ _ b
  · have hc := s.windowWrite_tile_other hp t (show 0x18 < 0x200 by omega) 4 v.toNat
    refine answers_of_inner (congrArg s.inner (hw.trans hc)) rfl rfl ⟨fun h => absurd h hp, fun _ => ⟨rfl, ?_⟩⟩
    exact SMap.get_mod_self 0 s.modCnt (odKey 0x4200 2) (satAdd 32 · 1)

/-- A read of a read-clear counter returns and clears it. -/
theorem registerRead_counter (t : TileId) {off : Nat} (h : s.reach p 0 = true) (hrc : readClear off) :
    answers (.rcRegisterRead (.window p (0x1000 * t.val + off)) 4) s fun u =>
      (u.tile t.val).count off = 0 ∧ u.outbox = .completion p 0 (leBytes 4 ((s.tile t.val).count off)) false :: s.outbox ∧
      ∀ o, o ≠ off → (u.tile t.val).count o = (s.tile t.val).count o := by
  have htile : (s.setTile t.val ((s.tile t.val).clearCount off)).tile t.val = (s.tile t.val).clearCount off := State.tile_setTile s _ _
  refine answers_of_inner (congrArg s.inner (State.registerRead_readClear h t hrc)) rfl rfl ⟨?_, rfl, fun o ho => ?_⟩
  · exact (congrArg (Tile.count · off) htile).trans (Tile.count_clearCount_self _ _)
  · exact (congrArg (Tile.count · o) htile).trans (Tile.count_clearCount_ne _ ho)

/-- Nothing mapped ends in Completer Abort, which AER notes. -/
theorem registerRead_unmapped (h : s.reach p 0 = true) {off n : Nat} (ha : aligned off n = false ∨ 0x7000000 ≤ off) :
    answers (.rcRegisterRead (.window p off) n) s fun u =>
      u = { s.setFn p 0 { s.fn p 0 with aer := (s.fn p 0).aer ||| 2 ^ 15 } with outbox := .completion p 1 [] false :: s.outbox, power := u.power } :=
  answers_of_inner (congrArg s.inner (State.registerRead_aborts h ha)) rfl rfl rfl

/-! ## The die control window from the die -/

/-- An agent of the die clears bits of TILE_FAULT, and is answered. -/
theorem dieWrite_tileFault {id : Nat} {q : Txn} (t : TileId) (hs : s.isReady = true) (hq : s.ready id (· == .write) = some q)
    (hp : placeOf q.dest.addr = .control (0x1000 * t.val + 0x18)) (hd : q.data.bytes = leBytes 4 v.toNat) (hst : q.status = 0) :
    answers (.registerWrite (.die id) 4 v) s fun u =>
      (∀ b, (u.tile t.val).ctl.fault.testBit b = ((s.tile t.val).ctl.fault.testBit b && !(decide (b < 4) && v.toNat.testBit b))) ∧
      answeredWith u id {} 0 := by
  have ht := t.isLt
  have hlen : q.data.bytes.length = 4 := by rw [hd, length_leBytes]
  have hdie : s.registerWrite (.die id) 4 v = s.dieRegister id := by simp [State.registerWrite, hs]
  have hw := State.dieRegister_word hq hp (by omega) (by omega) hlen
  rw [hd, leNat_leBytes, s.windowWrite_tileFault (who := .die) (fun _ h => nomatch h) t, s.work_clearFault] at hw
  refine answers_of_respond (congrArg s.inner (hdie.trans hw)) (State.ready_txn? hq) hst rfl rfl rfl fun u hu b => ?_
  have htile : u.tile t.val = (s.tile t.val).clearFault (v.toNat % 2 ^ 32) := by
    rw [← Nat.mod_mod v.toNat, ← s.tile_setTile t.val ((s.tile t.val).clearFault _)]
    exact congrArg (SMap.get {} · t.val) hu
  rw [htile]
  exact testBit_sub_and_low (by omega) _ _ b

/-- An agent of the die reads a read-clear counter of a tile, and is answered with its value. -/
theorem dieRead_counter {id off : Nat} {q : Txn} (t : TileId) (hs : s.isReady = true) (hq : s.ready id (· == .read) = some q)
    (hp : placeOf q.dest.addr = .control (0x1000 * t.val + off)) (hn : q.len = 4) (hst : q.status = 0) (hrc : readClear off) :
    answers (.rcRegisterRead (.die id) 4) s fun u =>
      (u.tile t.val).count off = 0 ∧ answeredWith u id ⟨leBytes 4 ((s.tile t.val).count off), false⟩ 0 := by
  have hdie : s.registerRead (.die id) 4 = s.homeRead id {} := by simp [State.registerRead, hs, State.ready_txn? hq, hp]
  refine answers_of_respond (congrArg s.inner (hdie.trans (State.homeRead_readClear hq hp hn hrc))) (State.ready_txn? hq) hst rfl rfl rfl fun u hu => ?_
  have htile : u.tile t.val = (s.tile t.val).clearCount off := by
    rw [← s.tile_setTile t.val ((s.tile t.val).clearCount off)]
    exact congrArg (SMap.get {} · t.val) hu
  rw [htile, Tile.count_clearCount_self]

/-! ## Configuration space -/

/-- NumVFs is written while VF Enable is 0. -/
theorem configWrite_numVfs (h : s.fnUp p 0 = true) (he : (s.port p).vfEnable = false) :
    answers (.registerWrite (.config p 0 0x150) 4 v) s fun u => u = { s.setPort p { s.port p with vfNum := v.toNat % 65536 } with power := u.power } := by
  have hw : s.registerWrite (.config p 0 0x150) 4 v = s.setPort p { s.port p with vfNum := v.toNat % 65536 } := by
    rw [State.registerWrite_config (f := 0) h, ← Nat.mod_mod_of_dvd v.toNat (show 65536 ∣ 2 ^ 32 by decide)]
    simp [State.configWrite, he, State.modPort]
  exact answers_of_inner (congrArg s.inner hw) rfl rfl rfl

/-- VF Enable makes VFs exist, and changes no assignment and nothing of the other port's. -/
theorem configWrite_vfEnable (h : s.fnUp p 0 = true) :
    answers (.registerWrite (.config p 0 0x148) 4 v) s fun u =>
      (u.port p).numVfs = (if v.toNat.testBit 0 then min (s.port p).vfNum (min 15 ((s.port p).trained.getD 3 15)) else 0) ∧
      (∀ f, (u.fn p f).qBase = (s.fn p f).qBase ∧ (u.fn p f).qCount = (s.fn p f).qCount) ∧ (u.port (!p)).numVfs = (s.port (!p)).numVfs := by
  have hbit : (v.toNat % 2 ^ 32).testBit 0 = v.toNat.testBit 0 := by rw [Nat.testBit_mod_two_pow]; rfl
  have hw : s.registerWrite (.config p 0 0x148) 4 v = s.setVfs p (v.toNat.testBit 0) (s.port p).vfNum := by
    rw [State.registerWrite_config (f := 0) h, ← hbit]
    rfl
  obtain ⟨t, hsame, ht⟩ := s.setVfs_eq p (v.toNat.testBit 0) (s.port p).vfNum
  refine answers_of_inner (congrArg s.inner (hw.trans ht)) hsame.acct hsame.blocked ⟨?_, fun f => ?_, ?_⟩
  · show ((t.setPort p _).port p).numVfs = _
    rw [State.port_setPort]
    rfl
  · show ((t.setPort p _).fn p f).qBase = _ ∧ ((t.setPort p _).fn p f).qCount = _
    rw [State.fn_setPort_withVfs]
    exact ⟨hsame.qBase p f, hsame.qCount p f⟩
  · show ((t.setPort p _).port (!p)).numVfs = _
    rw [State.port_setPort_ne t _ (by cases p <;> decide)]
    exact hsame.numVfs (!p)

/-- A read of a word of configuration space. -/
theorem configRead_word {f : FnId} (h : s.fnUp p f.val = true) {off w : Nat} (hw : s.configWord p f.val off = some w) :
    answers (.rcRegisterRead (.config p f off) 4) s fun u =>
      u = { s with outbox := .completion p 0 (leBytes 4 w) false :: s.outbox, power := u.power } :=
  answers_of_inner (congrArg s.inner (State.registerRead_config h hw 4)) rfl rfl rfl

/-- Device Control 2 holds its timeout value and bit 12 (log 86). -/
theorem configWrite_devCtl2 {f : FnId} (h : s.fnUp p f.val = true) :
    answers (.registerWrite (.config p f 0x98) 4 v) s fun u =>
      u = { s.setFn p f.val { s.fn p f.val with devCtl2 := v.toNat % 32 + 4096 * bits v.toNat 12 1 } with power := u.power } := by
  have hbits : v.toNat % 2 ^ 32 % 32 + 4096 * bits (v.toNat % 2 ^ 32) 12 1 = v.toNat % 32 + 4096 * bits v.toNat 12 1 := by
    unfold bits
    omega
  have hw : s.registerWrite (.config p f 0x98) 4 v = s.setFn p f.val { s.fn p f.val with devCtl2 := v.toNat % 32 + 4096 * bits v.toNat 12 1 } := by
    rw [State.registerWrite_config h, ← hbits]
    rfl
  exact answers_of_inner (congrArg s.inner hw) rfl rfl rfl

/-- A write of 3 to the power state puts a function in D3hot, where its memory is out of reach. -/
theorem configWrite_d3hot {f : FnId} (h : s.fnUp p f.val = true) (hv : v.toNat % 4 = 3) :
    answers (.registerWrite (.config p f 0x44) 4 v) s fun u =>
      u = { s.setFn p f.val { s.fn p f.val with d3hot := true } with power := u.power } ∧ u.reach p f.val = false := by
  have h0 : ¬ v.toNat % 2 ^ 32 % 4 = 0 := by omega
  have h3 : v.toNat % 2 ^ 32 % 4 = 3 := by omega
  have hw : s.registerWrite (.config p f 0x44) 4 v = s.setFn p f.val { s.fn p f.val with d3hot := true } := by
    rw [State.registerWrite_config h]
    unfold State.configWrite
    exact (if_neg h0).trans (if_pos h3)
  refine answers_of_inner (congrArg s.inner hw) rfl rfl ⟨rfl, State.reach_of_d3hot ?_⟩
  exact congrArg Fn.d3hot (State.fn_setFn s p f.val _)

end

/-- Settles O32: each form by its own lemma above. -/
theorem registerAccesses : Obligations.RegisterAccesses := by
  intro s p v
  refine ⟨fun f h => ⟨?_, ?_, ?_⟩, fun off n h ha => ?_, fun f off n hu hd => ⟨?_, ?_⟩, fun t h => ?_, fun t off h hrc => ?_, fun off n h ha => ?_,
    fun id q t hs hq hp hd hst => ?_, fun id q t hs hq hp hn hst => ?_, fun h => ⟨fun he => ?_, ?_, ?_⟩, fun f h => ⟨?_, fun hv => ?_, ?_, ?_, ?_⟩⟩
  · exact registerWrite_fnEventEn v h
  · exact registerWrite_fnEvent v h
  · exact registerRead_mboxStatus h
  · exact registerWrite_misaligned v h ha
  · exact registerWrite_d3hot v hu hd off n
  · exact registerRead_d3hot hu hd off n
  · exact registerWrite_tileFault v t h
  · exact registerRead_counter t h hrc
  · exact registerRead_unmapped h ha
  · exact dieWrite_tileFault v t hs hq hp hd hst
  · exact dieRead_counter t hs hq hp hn hst (.inr (.inr (.inl rfl)))
  · exact configWrite_numVfs v h he
  · exact configWrite_vfEnable v h
  · exact configRead_word (f := 0) h rfl
  · exact configWrite_devCtl2 v h
  · exact configWrite_d3hot v h hv
  · exact configRead_word h rfl
  · exact configRead_word h rfl
  · exact configRead_word h rfl

end Sys2Proof.Machine
end

section
/-!
SUPPORT. What Hedgerow's sending, the event log, Stored writes and the steps of a measurement round leave alone (13 R424, R432, R438; 14 R452 to
R469; 15 R487).
-/

namespace Sys2Proof.Machine

variable (s : State)

/-! ## Hedgerow and the event log -/

theorem State.hrStart_frame (up : Bool) : s.hrStart up = { s with hr := (s.hrStart up).hr, outbox := (s.hrStart up).outbox } := by
  unfold State.hrStart
  dsimp only
  split
  · rfl
  · split
    · rfl
    · split
      · rfl
      · split <;> rfl

theorem State.hrSend_frame (f : HFrame) : s.hrSend f = { s with hr := (s.hrSend f).hr, outbox := (s.hrSend f).outbox } := by
  unfold State.hrSend State.hrCopy
  dsimp only
  rw [State.hrStart_frame, State.hrStart_frame (s.setLine _ _)]
  rfl

theorem State.pumpNotices_frame (fuel : Nat) :
    s.pumpNotices fuel = { s with hr := (s.pumpNotices fuel).hr, outbox := (s.pumpNotices fuel).outbox } := by
  induction fuel generalizing s with
  | zero => rfl
  | succ fuel ih =>
    unfold State.pumpNotices
    split
    · rfl
    · dsimp only
      split
      · rfl
      · rw [ih, State.hrSend_frame]
        rfl

theorem State.notice_frame (n : Notice) : s.notice n = { s with hr := (s.notice n).hr, outbox := (s.notice n).outbox } := by
  unfold State.notice
  dsimp only
  rw [State.pumpNotices_frame]
  split <;> rfl

theorem State.spillRecord_frame (r : LogRec) : s.spillRecord r = { s with txns := (s.spillRecord r).txns, nextId := (s.spillRecord r).nextId } := by
  unfold State.spillRecord
  dsimp only
  split <;> rfl

/-! ## What leaves the contents of the die, power and pins alone -/

/-- `t` has the tiles, the memory tiers and the Privet units of `s`, and its power and pins but for the count of parameter writes. -/
structure State.SameBody (s t : State) : Prop where
  tiles : t.tiles = s.tiles
  tiers : t.tiers = s.tiers
  units : t.units = s.units
  power : ∃ n, t.power = { s.power with paramWrites := n }

theorem State.SameBody.refl : s.SameBody s := ⟨rfl, rfl, rfl, _, rfl⟩

variable {s} in
theorem State.SameBody.trans {t u : State} (h : s.SameBody t) (h' : t.SameBody u) : s.SameBody u := by
  obtain ⟨n, hn⟩ := h.power
  obtain ⟨m, hm⟩ := h'.power
  exact ⟨h'.tiles.trans h.tiles, h'.tiers.trans h.tiers, h'.units.trans h.units, m, by rw [hm, hn]⟩

theorem State.sameBody_foldl {α : Type} {f : State → α → State} (hf : ∀ (s : State) a, s.SameBody (f s a)) (l : List α) : s.SameBody (l.foldl f s) :=
  foldl_rel State.SameBody.refl State.SameBody.trans hf l s

theorem State.sameBody_commitWrite (w : StoredWrite) : s.SameBody (s.commitWrite w) := by
  unfold State.commitWrite
  dsimp only
  split <;> exact ⟨rfl, rfl, rfl, _, rfl⟩

theorem State.sameBody_setStored (l : List StoredWrite) : s.SameBody { s with stored := l } := ⟨rfl, rfl, rfl, _, rfl⟩

theorem State.sameBody_commitServed : s.SameBody s.commitServed :=
  (s.sameBody_setStored []).trans (State.sameBody_foldl _ State.sameBody_commitWrite s.stored)

theorem State.sameBody_draw : s.SameBody s.draw.2 := ⟨rfl, rfl, rfl, _, rfl⟩

theorem State.sameBody_tearServed : s.SameBody s.tearServed := by
  refine (s.sameBody_setStored []).trans (State.sameBody_foldl _ (fun s w => ?_) s.stored)
  dsimp only
  split
  · exact s.sameBody_draw.trans (State.sameBody_commitWrite _ w)
  · exact s.sameBody_draw

theorem State.sameBody_notice (n : Notice) : s.SameBody (s.notice n) := by
  rw [State.notice_frame]
  exact ⟨rfl, rfl, rfl, _, rfl⟩

theorem State.sameBody_record (e : Ev) : s.SameBody (s.record e) := by
  have hnotice (u : State) (r : LogRec) (h : s.SameBody u) :
      s.SameBody (if u.odNow 0x1100 7 ≤ r.sev then u.notice { seq := r.seq, sev := r.sev, bytes := r.bytes } else u) := by
    split
    · exact h.trans (u.sameBody_notice _)
    · exact h
  unfold State.record
  dsimp only
  split
  · exact ⟨rfl, rfl, rfl, _, rfl⟩
  · refine hnotice _ _ ?_
    split
    · exact ⟨rfl, rfl, rfl, _, rfl⟩
    · rw [State.spillRecord_frame, State.bothPfs_frame]
      exact ⟨rfl, rfl, rfl, _, rfl⟩

/-! ## The host links -/

theorem State.port_linksDown (p : PortId) : (s.linksDown.port p).up = false := by
  have hfold : s.linksDown = (s.modPort false fun x => { x with up := false, rate := 0, width := 0 }).modPort true
      fun x => { x with up := false, rate := 0, width := 0 } := rfl
  rw [hfold]
  cases p with
  | false => rw [State.modPort, State.port_setPort_ne _ _ Bool.false_ne_true, State.modPort, State.port_setPort]
  | true => rw [State.modPort, State.port_setPort]

/-! ## Measurement -/

theorem State.foldl_power {α : Type} {f : State → α → State} (hf : ∀ s a, (f s a).power = s.power) (l : List α) : (l.foldl f s).power = s.power :=
  foldl_rel (r := fun s t : State => t.power = s.power) (fun _ => rfl) (fun h h' => h'.trans h) hf l s

@[simp] theorem State.post_power (e : Ev) : (s.post e).power = s.power := by
  rw [State.post_frame]

@[simp] theorem State.fnEvent_power (p : PortId) (f bit : Nat) : (s.fnEvent p f bit).power = s.power := by
  rw [State.fnEvent_frame]

@[simp] theorem State.hrStart_power (up : Bool) : (s.hrStart up).power = s.power := by
  rw [State.hrStart_frame]

@[simp] theorem State.publishRound_power (r : RoundIn) : (s.publishRound r).power = s.power := by
  have hcollect : s.beats.collect.power = s.power := by
    refine State.foldl_power _ (fun s t => ?_) _
    rfl
  unfold State.publishRound
  dsimp only
  split
  · rfl
  · exact hcollect

@[simp] theorem State.sensors_power : s.sensors.power = s.power := by
  refine State.foldl_power _ (fun s c => ?_) _
  dsimp only
  split <;> simp

@[simp] theorem State.slowDown_power (h : Nat × Int) : (s.slowDown h).power = s.power := by
  refine (State.foldl_power _ (fun s p => ?_) _).trans (State.post_power _ _)
  split <;> simp

@[simp] theorem State.stepDown_power : s.stepDown.power = s.power := rfl

@[simp] theorem State.enforce_power (h : Nat × Int) : (s.enforce h).power = s.power := by
  simp [State.enforce]

@[simp] theorem State.stepUp_power : s.stepUp.power = s.power := by
  unfold State.stepUp
  dsimp only
  split <;> simp

@[simp] theorem State.warned_power (hot : Option (Nat × Int)) : (s.warned hot).power = s.power := by
  unfold State.warned
  split
  · rfl
  · split <;> simp

@[simp] theorem State.fanRead_power (r : RoundIn) (f : Nat) : (s.fanRead r f).power = s.power := by
  unfold State.fanRead
  dsimp only
  split <;> simp

@[simp] theorem State.governFans_power : s.governFans.power = s.power := by
  unfold State.governFans
  split <;> rfl

theorem State.fansEnd_power (r : RoundIn) : (s.fansEnd r).power = { s.power with pwmReleased := false } := by
  simp [State.fansEnd]

/-- The end of a trip takes a module in Slumber to a warm start that is due, and touches power in no other way. -/
theorem State.coolDown_power (below : Bool) : (s.coolDown below).power = s.power ∨ s.power.phase = .slumber ∧
    (s.coolDown below).power = { s.power with phase := .warm, pstate := 0, causeLatch := 5, causeRail := 0 } := by
  unfold State.coolDown
  dsimp only
  generalize (if below = true then s.hk.coolRounds + 1 else 0) = n
  split
  case isTrue h => exact .inr ⟨h.2, rfl⟩
  case isFalse => exact .inl rfl

/-- What the decision at a round's end makes of power and pins: OVERTEMP_N may be released, and from Slumber a warm start may fall due. -/
theorem State.thermal_power : ∃ b, (b = s.power.overtempN ∨ b = false) ∧ (s.thermal.power = { s.power with overtempN := b } ∨
    s.power.phase = .slumber ∧
      s.thermal.power = { s.power with overtempN := b, phase := .warm, pstate := 0, causeLatch := 5, causeRail := 0 }) := by
  unfold State.thermal
  dsimp only
  generalize hu : (if (s.levels.all fun x => !hotAt x) = true then { s with power := { s.power with overtempN := false } } else s) = u
  obtain ⟨b, hb, hpow⟩ : ∃ b, (b = s.power.overtempN ∨ b = false) ∧ u.power = { s.power with overtempN := b } := by
    subst hu
    split
    · exact ⟨false, .inr rfl, rfl⟩
    · exact ⟨_, .inl rfl, rfl⟩
  refine ⟨b, hb, ?_⟩
  rw [← hpow]
  split
  · split <;> simp
  · simp
  · split
    · split
      · simp
      · split <;> simp
    · simp
  · have hph : u.power.phase = s.power.phase := by rw [hpow]
    rcases u.coolDown_power (s.levels.all fun x => !hotAt x) with h | ⟨hs, h⟩
    · exact .inl h
    · exact .inr ⟨hph ▸ hs, by rw [h, hpow]⟩

end Sys2Proof.Machine
end

section
/-!
SUPPORT. The agreement of pins, rails, by-pass and power state with the module's phase (`Power.ok`), update by update: what a switch-on, a reset, a start, a
trip and a measurement round leave of it (01 R16 to R38; 14 R466; 16 R502, R503).
-/

namespace Sys2Proof.Machine

section
variable {x : Power}

/-! ## Phases and what they say -/

theorem Power.ok.phase_of_off (h : x.ok) (hoff : x.on = false) : x.phase = .off := by
  obtain ⟨hiff, -⟩ := h
  exact hiff.mp hoff

theorem Power.ok.readyN_of_ne (h : x.ok) (hp : x.phase ≠ .ready) : x.readyN = false := by
  obtain ⟨-, hready, -⟩ := h
  rwa [Ne, ← hready, Bool.not_eq_true] at hp

theorem Power.ok.pstate_of_ne (h : x.ok) (hr : x.phase ≠ .ready) (hs : x.phase ≠ .slumber) : x.pstate = 0 := by
  obtain ⟨-, -, -, -, -, -, hrest⟩ := h
  exact hrest hr hs

theorem Power.ok.slotId_lt (h : x.ok) : x.slotId < 64 := by
  obtain ⟨-, -, hslot, -⟩ := h
  exact hslot

/-- Power state 2 or 3, Idle or Doze, is one of Ready. -/
theorem Power.ok.ready_of_pstate (h : x.ok) (hp : x.pstate = 2 ∨ x.pstate = 3) : x.phase = .ready := by
  obtain ⟨-, -, -, -, hslumber, -, hrest⟩ := h
  by_cases hr : x.phase = .ready
  · exact hr
  · by_cases hs : x.phase = .slumber
    · obtain ⟨h4, -⟩ := hslumber hs
      omega
    · have h0 := hrest hr hs
      omega

theorem Power.ok.pins_of_held (h : x.ok) (hp : x.phase = .inReset ∨ x.phase = .off) : x.bypassOpen = false ∧ x.overtempN = false := by
  obtain ⟨-, -, -, -, -, hheld, -⟩ := h
  exact hheld hp

/-- With the by-pass open the module is neither held in reset nor off. -/
theorem Power.ok.released_of_bypass (h : x.ok) (hb : x.bypassOpen = true) : ¬(x.phase = .inReset ∨ x.phase = .off) := by
  intro hp
  obtain ⟨hb', -⟩ := h.pins_of_held hp
  simp [hb'] at hb

/-! ## Updates that keep it -/

/-- Parameter writes and the request for defaults are no part of it. -/
theorem Power.ok.withParams (h : x.ok) (n : Nat) (d : Bool) : ({ x with paramWrites := n, defaultsAtStart := d } : Power).ok := h

theorem Power.ok.withPstate (h : x.ok) {p : Nat} (hp : p = x.pstate ∨ x.phase = .ready ∧ 1 ≤ p ∧ p ≤ 3) : ({ x with pstate := p } : Power).ok := by
  rcases hp with rfl | ⟨hr, h1, h3⟩
  · exact h
  · simp_all [Power.ok]

theorem Power.ok.withOvertemp (h : x.ok) (hp : ¬(x.phase = .inReset ∨ x.phase = .off)) (b : Bool) : ({ x with overtempN := b } : Power).ok := by
  obtain ⟨hoff, hready, hslot, hatReady, hslumber, -, hrest⟩ := h
  exact ⟨hoff, hready, hslot, hatReady, hslumber, fun hp' => absurd hp' hp, hrest⟩

/-- A start that is due, or has stopped: READY_N released, power state 0. -/
theorem Power.ok_of_waiting (hp : x.phase = .cold ∨ x.phase = .warm ∨ x.phase = .stopped) (hon : x.on = true) (hslot : x.slotId < 64) (hr : x.readyN = false)
    (h0 : x.pstate = 0) : x.ok := by
  rcases hp with hp | hp | hp <;> simp [Power.ok, hp, hon, hslot, hr, h0]

theorem Power.ok_held (hon : x.on = true) (hslot : x.slotId < 64) (cause rail : Nat) : (x.held cause rail).ok := by
  simp [Power.ok, Power.held, hon, hslot]

theorem Power.ok_unpowered (hslot : x.slotId < 64) (tooHigh : Bool) : (x.unpowered tooHigh).ok := by
  simp [Power.ok, Power.unpowered, hslot]

/-- A start that has run to its end leaves Ready, one that has stopped the stopped phase. -/
theorem Power.ok_started (hon : x.on = true) (hslot : x.slotId < 64) (us : Nat) (stop : Option (Nat × Nat)) : (x.started us stop).ok := by
  cases stop with
  | none => simp [Power.ok, Power.started, hon, hslot]
  | some _ => exact Power.ok_of_waiting (.inr (.inr rfl)) hon hslot rfl rfl

theorem Power.ok_after (hon : x.on = true) (hslot : x.slotId < 64) (k : StartKind) (o : StartIn) (us : Nat) (stop : Option (Nat × Nat)) (m : Power) :
    (x.after k o us stop m).ok := by
  have h := Power.ok_started (x := { x with readyOnce := x.readyOnce && !k.cold, coldNext := x.coldNext && !k.cold, fromSlumber := k.slumber }.counted k.cold (lostParams o) 0)
    hon hslot us stop
  refine h.withOvertemp ?_ m.overtempN
  cases stop <;> simp [Power.started]

end

/-! ## Power input and module reset -/

section
variable {s : State}

theorem State.powerOn_ok (h : s.power.ok) (hoff : s.power.on = false) (straps : BitVec 6) : (s.powerOn straps).power.ok := by
  have hph : s.power.phase = .off := h.phase_of_off hoff
  obtain ⟨hbypass, hover⟩ := h.pins_of_held (.inr hph)
  have hr : s.power.readyN = false := h.readyN_of_ne (by simp [hph])
  have h0 : s.power.pstate = 0 := h.pstate_of_ne (by simp [hph]) (by simp [hph])
  have hslot : straps.toNat < 64 := straps.isLt
  cases hhold : s.power.modReset || s.power.pwrPresOpen with
  | false => exact Power.ok_of_waiting (.inl (by simp [State.powerOn, hhold])) rfl hslot hr h0
  | true => simp [State.powerOn, hhold, Power.ok, hbypass, hover, hr, h0, hslot]

theorem State.powerOff_ok (h : s.power.ok) (tooHigh : Bool) : (s.powerOff tooHigh).power.ok := Power.ok_unpowered h.slotId_lt tooHigh

theorem State.powerApplied_ok (h : s.power.ok) (mv : Nat) (straps : BitVec 6) : (s.powerApplied mv straps).power.ok := by
  unfold State.powerApplied
  split
  case isTrue hc =>
    simp only [Bool.and_eq_true, Bool.not_eq_true'] at hc
    obtain ⟨⟨⟨hoff, -⟩, -⟩, -⟩ := hc
    exact State.powerOn_ok h hoff straps
  case isFalse => exact h

theorem State.inputLockout_ok (h : s.power.ok) (tooHigh : Bool) : (s.inputLockout tooHigh).power.ok := by
  unfold State.inputLockout
  split
  · exact State.powerOff_ok h tooHigh
  · exact h

theorem State.lockoutRelease_ok (h : s.power.ok) (mv : Nat) (straps : BitVec 6) : (s.lockoutRelease mv straps).power.ok := by
  unfold State.lockoutRelease
  split
  case isTrue hc =>
    simp only [Bool.and_eq_true, Bool.not_eq_true'] at hc
    obtain ⟨⟨hoff, -⟩, -⟩ := hc
    split
    · exact State.powerOn_ok h hoff straps
    · exact h
  case isFalse => exact h

/-- Who enters module reset may have set before it what holds it: that is no part of the agreement. -/
theorem State.enterReset_ok (h : s.power.ok) (cause rail : Nat) : (s.enterReset cause rail).power.ok := by
  unfold State.enterReset
  split
  case isTrue => exact h
  case isFalse hc =>
    simp only [Bool.or_eq_true, Bool.not_eq_true', not_or, Bool.not_eq_false] at hc
    obtain ⟨hon, -⟩ := hc
    exact Power.ok_held hon h.slotId_lt cause rail

theorem State.coldNext_ok (h : s.power.ok) : s.coldNext.power.ok := h

theorem State.leaveReset_ok (h : s.power.ok) (straps : BitVec 6) : (s.leaveReset straps).power.ok := by
  unfold State.leaveReset
  dsimp only
  split
  case isTrue hc =>
    simp only [Bool.and_eq_true, beq_iff_eq] at hc
    obtain ⟨⟨⟨hon, hph⟩, -⟩, -⟩ := hc
    have hr : s.power.readyN = false := h.readyN_of_ne (by simp [hph])
    have h0 : s.power.pstate = 0 := h.pstate_of_ne (by simp [hph]) (by simp [hph])
    refine Power.ok_of_waiting ?_ hon straps.isLt hr h0
    dsimp only
    split
    · exact .inr (.inl rfl)
    · exact .inl rfl
  case isFalse => exact h

theorem State.moduleReset_ok (h : s.power.ok) (ns : Nat) (taken : Bool) : (s.moduleReset ns taken).power.ok := by
  unfold State.moduleReset
  split
  · exact State.enterReset_ok (s := { s with power := { s.power with modReset := true } }) h 1 0
  · exact h

theorem State.railLoss_ok (h : s.power.ok) : s.railLoss.power.ok := by
  unfold State.railLoss
  split
  · exact State.enterReset_ok (s := { s.tearServed with power := { s.power with paramWrites := s.tearServed.power.paramWrites } }) h 0 0
  · exact h

theorem State.railFault_ok (h : s.power.ok) (rail status cause causeRail : Nat) : (s.railFault rail status cause causeRail).power.ok := by
  unfold State.railFault
  split
  · refine State.coldNext_ok (State.enterReset_ok ?_ cause causeRail)
    exact h
  · exact h

/-! ## Measurement and trips -/

/-- Slumber, whatever was before it, of a module that is on. -/
theorem State.enterSlumber_ok (hon : s.power.on = true) (hslot : s.power.slotId < 64) : s.enterSlumber.power.ok := by
  simp [State.enterSlumber, Power.ok, hon, hslot]

theorem State.tripCheck_ok (h : s.power.ok) (hon : s.power.on = true) (hb : s.power.bypassOpen = true) (ch : Nat) : (s.tripCheck ch).power.ok := by
  unfold State.tripCheck
  dsimp only
  split
  · split
    · exact State.enterSlumber_ok (by simpa using hon) (by simpa using h.slotId_lt)
    · exact h.withOvertemp (h.released_of_bypass hb) true
  · exact h

/-- The commands of the measurement round act on a module that is on, its by-pass open. -/
theorem State.serves_iff : s.serves = true ↔ s.power.on = true ∧ s.power.bypassOpen = true := by
  simp [State.serves]

theorem State.convert_ok (h : s.power.ok) (ch : Nat) (x : Sample) : (s.convert ch x).power.ok := by
  unfold State.convert
  split
  case isTrue hc =>
    simp only [Bool.and_eq_true] at hc
    obtain ⟨⟨hs, -⟩, -⟩ := hc
    obtain ⟨hon, hb⟩ := State.serves_iff.mp hs
    refine State.tripCheck_ok ?_ ?_ ?_ ch
    · exact h
    · exact hon
    · exact hb
  case isFalse => exact h

theorem State.thermal_ok (h : s.power.ok) (hon : s.power.on = true) (hb : s.power.bypassOpen = true) : s.thermal.power.ok := by
  obtain ⟨b, -, hpow | ⟨hs, hpow⟩⟩ := s.thermal_power
  · rw [hpow]
    exact h.withOvertemp (h.released_of_bypass hb) b
  · rw [hpow]
    exact Power.ok_of_waiting (.inr (.inl rfl)) hon h.slotId_lt (h.readyN_of_ne (by simp [hs])) rfl

theorem State.fansEnd_ok (h : s.power.ok) (r : RoundIn) : (s.fansEnd r).power.ok := by
  rw [State.fansEnd_power]
  exact h

theorem State.roundEnd_ok (h : s.power.ok) (r : RoundIn) : (s.roundEnd r).power.ok := by
  unfold State.roundEnd
  split
  case isTrue hc =>
    simp only [Bool.and_eq_true] at hc
    obtain ⟨⟨hs, -⟩, -⟩ := hc
    obtain ⟨hon, hb⟩ := State.serves_iff.mp hs
    have hpow : (s.publishRound r).sensors.power = s.power := by rw [State.sensors_power, State.publishRound_power]
    have hthermal := State.thermal_ok (s := (s.publishRound r).sensors)
    rw [hpow] at hthermal
    exact State.fansEnd_ok (hthermal h hon hb) r
  case isFalse => exact h

/-! ## Starts -/

/-- What a start makes of power and pins: those of its end, and where a trip cuts it short those of Slumber entered from there. -/
theorem State.runStart_power (s : State) (cold : Bool) (o : StartIn) : ∃ (u : State) (us : Nat) (stop : Option (Nat × Nat)) (m : Power) (n : Nat),
    u.power = { (s.commitServed.sampleStraps (s.startKind cold) o).power.after (s.startKind cold) o us stop m with paramWrites := n } ∧
    (s.runStart cold o = u ∨ s.runStart cold o = u.enterSlumber) := by
  unfold State.runStart
  dsimp only
  split
  · exact ⟨_, _, _, _, _, rfl, .inr rfl⟩
  · exact ⟨_, _, _, _, _, rfl, .inl rfl⟩

theorem State.commitServed_sampleStraps_power (s : State) (k : StartKind) (o : StartIn) (hslot : s.power.slotId < 64) :
    (s.commitServed.sampleStraps k o).power.on = s.power.on ∧ (s.commitServed.sampleStraps k o).power.slotId < 64 := by
  obtain ⟨n, hn⟩ := s.sameBody_commitServed.power
  unfold State.sampleStraps
  split
  · split
    · exact ⟨by simp [hn], BitVec.isLt _⟩
    · simp [hn, hslot]
  · simp [hn, hslot]

theorem State.runStart_ok (hon : s.power.on = true) (hslot : s.power.slotId < 64) (cold : Bool) (o : StartIn) : (s.runStart cold o).power.ok := by
  obtain ⟨hon', hslot'⟩ := s.commitServed_sampleStraps_power (s.startKind cold) o hslot
  obtain ⟨u, us, stop, m, n, hpow, h | h⟩ := s.runStart_power cold o
  · rw [h, hpow]
    exact Power.ok_after (hon'.trans hon) hslot' _ o us stop m
  · rw [h]
    exact State.enterSlumber_ok (by rw [hpow]; exact hon'.trans hon) (by rw [hpow]; exact hslot')

/-! ## Power states -/

theorem State.foldl_setTier_power (s : State) (f : State → Nat → Tier) (l : List Nat) :
    (l.foldl (fun (s : State) k => s.setTier k (f s k)) s).power = s.power := by
  refine State.foldl_power _ (fun s k => ?_) l
  rfl

theorem State.foldl_modUnit_power (s : State) (f : PUnit → PUnit) (l : List Nat) :
    (l.foldl (fun (s : State) u => s.modUnit u f) s).power = s.power := by
  refine State.foldl_power _ (fun s u => ?_) l
  rfl

/-- A report that is done wakes a module in Doze into Idle. -/
theorem State.reportDone_pstate (s : State) :
    s.reportDone.power.pstate = s.power.pstate ∨ s.power.pstate = 3 ∧ s.reportDone.power.pstate = 2 := by
  unfold State.reportDone
  split
  · exact .inl rfl
  · split
    · exact .inl rfl
    · split
      · exact .inl rfl
      · dsimp only
        rw [State.foldl_setTier_power]
        by_cases h3 : s.power.pstate = 3
        · exact .inr ⟨h3, if_pos h3⟩
        · exact .inl (if_neg h3)

/-- The last stack to enter Doze takes an idle module into Doze. -/
theorem State.dozeEnter_pstate (s : State) (k : Nat) :
    (s.dozeEnter k).power.pstate = s.power.pstate ∨ s.power.pstate = 2 ∧ (s.dozeEnter k).power.pstate = 3 := by
  unfold State.dozeEnter
  split
  · dsimp only
    rw [State.setTier_power, State.foldl_modUnit_power]
    split
    case isTrue h =>
      obtain ⟨h2, -⟩ := h
      exact .inr ⟨h2, rfl⟩
    case isFalse => exact .inl (by rw [State.setTier_power, State.foldl_modUnit_power])
  · exact .inl rfl

end
end Sys2Proof.Machine
end

section
/-!
SUPPORT. Pins, rails, by-pass and power state go with the module's phase over every step (01 R16 to R38; 14 R466; 16 R502, R503): O5. Each command ends in
one of the seven endings of Machine/Ops.lean; of these `still`, `timed` and `rested` alone let through what its meaning makes of power.
-/

namespace Sys2Proof.Machine

section
variable {s s' : State}

/-- An outcome that is a next state whose power and pins agree with its phase. -/
def endsPowerOk (o : Host.Outcome State Fault Refusal) : Prop := ∃ t, o = .next t ∧ t.power.ok

theorem State.still_endsPowerOk (h : s'.power.ok) : endsPowerOk (s.still s') := ⟨_, rfl, h⟩
theorem State.timed_endsPowerOk (h : s'.power.ok) : endsPowerOk (s.timed s') := ⟨_, rfl, h⟩
theorem State.fanned_endsPowerOk (h : s.power.ok) (s' : State) : endsPowerOk (s.fanned s') := ⟨_, rfl, h.withParams _ _⟩
theorem State.ported_endsPowerOk (h : s.power.ok) (s' : State) : endsPowerOk (s.ported s') := ⟨_, rfl, h⟩
theorem State.served_endsPowerOk (h : s.power.ok) (s' : State) : endsPowerOk (s.served s') := ⟨_, rfl, h.withParams _ _⟩
theorem State.rested_endsPowerOk (h : s.power.ok) (hp : s'.power.pstate = s.power.pstate ∨ s.power.phase = .ready ∧ 1 ≤ s'.power.pstate ∧ s'.power.pstate ≤ 3) :
    endsPowerOk (s.rested s') := ⟨_, rfl, h.withPstate hp⟩

/-- Work leads from Idle and Doze to Active. -/
theorem State.powerAfter_ok (h : s.power.ok) (s' : State) : (s.powerAfter s').ok := by
  refine Power.ok.withPstate (x := { s.power with busyAt := s.busyAfter s', paramWrites := s'.power.paramWrites }) h ?_
  dsimp only
  split
  case isTrue hw =>
    obtain ⟨hrests, -⟩ := hw
    exact .inr ⟨h.ready_of_pstate hrests, by decide, by decide⟩
  case isFalse => exact .inl rfl

theorem State.inner_endsPowerOk (h : s.power.ok) (s' : State) : endsPowerOk (s.inner s') := ⟨_, rfl, State.powerAfter_ok h _⟩

/-- The commands that write power, by what they share with each other; the rest by their endings. -/
theorem exec_endsPowerOk (c : Instr) (h : s.power.ok) : endsPowerOk (exec c s) := by
  have hstart (ph : Phase) (cold : Bool) (o : StartIn) :
      (if s.power.on && s.power.phase == ph then s.runStart cold o else s).power.ok := by
    split
    case isTrue hc =>
      obtain ⟨hon, -⟩ := Bool.and_eq_true_iff.mp hc
      exact State.runStart_ok hon h.slotId_lt cold o
    case isFalse => exact h
  cases c with
  | coldStart o => exact State.timed_endsPowerOk (hstart .cold true o)
  | warmStart o => exact State.timed_endsPowerOk (hstart .warm o.storeBad o)
  | timebaseTick =>
    refine State.timed_endsPowerOk ?_
    split
    · rw [State.hrStart_power, State.hrStart_power]
      exact h
    · exact h
  | powerApplied mv straps => exact State.still_endsPowerOk (State.powerApplied_ok h mv straps)
  | inputLockout tooHigh => exact State.still_endsPowerOk (State.inputLockout_ok h tooHigh)
  | overvoltageLockoutRelease mv straps => exact State.still_endsPowerOk (State.lockoutRelease_ok h mv straps)
  | alwaysOnRailLoss => exact State.still_endsPowerOk (State.railLoss_ok h)
  | pwrPresOpen => exact State.still_endsPowerOk (State.enterReset_ok (s := { s with power := { s.power with pwrPresOpen := true } }) h 2 0)
  | pwrPresClose straps =>
    refine State.still_endsPowerOk ?_
    split
    · exact State.leaveReset_ok (s := { s with power := { s.power with pwrPresOpen := false } }) h straps
    · exact h
  | moduleReset ns taken => exact State.still_endsPowerOk (State.moduleReset_ok h ns taken)
  | moduleResetRelease straps =>
    exact State.still_endsPowerOk (State.leaveReset_ok (s := { s with power := { s.power with modReset := false } }) h straps)
  | corePowerGoodLoss => exact State.still_endsPowerOk (State.railFault_ok (s := s.draw.2) h 1 _ 3 0)
  | regulatorFault rail status => exact State.still_endsPowerOk (State.railFault_ok h rail.val status.toNat 4 rail.val)
  | channelConversion ch x => exact State.still_endsPowerOk (State.convert_ok h ch.val x)
  | measurementRoundEnd r => exact State.still_endsPowerOk (State.roundEnd_ok h r)
  | portReset | perstDeassert => exact State.ported_endsPowerOk h _
  | storedWriteDone => exact State.fanned_endsPowerOk h _
  | reportDone =>
    refine State.rested_endsPowerOk h ?_
    split
    · rcases s.reportDone_pstate with hp | ⟨h3, hp⟩
      · exact .inl hp
      · exact .inr ⟨h.ready_of_pstate (.inr h3), by omega, by omega⟩
    · exact .inl rfl
  | idleEnter =>
    refine State.rested_endsPowerOk h ?_
    split
    case isTrue hc =>
      simp only [State.isReady, Bool.and_eq_true, beq_iff_eq] at hc
      obtain ⟨⟨hready, -⟩, -⟩ := hc
      refine .inr ⟨hready, ?_⟩
      dsimp only
      split <;> decide
    case isFalse => exact .inl rfl
  | privetDozeEnter k =>
    refine State.rested_endsPowerOk h ?_
    rcases s.dozeEnter_pstate k.val with hp | ⟨h2, hp⟩
    · exact .inl hp
    · exact .inr ⟨h.ready_of_pstate (.inl h2), by omega, by omega⟩
  | inputLowExcursion | hedgerowLinkUp | hedgerowLinkDown | mailboxRead | mailboxWrite | dictionaryServe | hedgerowFrame | readReq | writeReq
  | describeReq | handoverReq | probe | noticeAck | sweep | noticeResend | eventIntake => exact State.served_endsPowerOk h _
  | _ => exact State.inner_endsPowerOk h _

end

/-- Settles O5: the queue does not matter, and every command keeps it. -/
theorem powerPhaseInvariant : Obligations.PowerPhaseInvariant := by
  intro s t h hstep
  unfold step at hstep
  split at hstep
  · cases hstep
    exact h
  · rename_i c r _
    obtain ⟨u, hu, hok⟩ := exec_endsPowerOk (s := { s with pending := r }) c h
    rw [hu] at hstep
    cases hstep
    exact hok

end Sys2Proof.Machine
end

section
/-!
SUPPORT. The power input switches the module on and off, and its excursions are reported (01 R16, R17, R19): O17.
-/

namespace Sys2Proof.Machine

section
variable {s : State}

theorem State.powerApplied_of_inRange {mv : Nat} (hoff : s.power.on = false) (hlock : s.power.ovLock = false) (hlo : 46500 ≤ mv) (hhi : mv < 58000)
    (straps : BitVec 6) : s.powerApplied mv straps = s.powerOn straps := by
  simp [State.powerApplied, hoff, hlock, hlo, hhi]

theorem State.lockoutRelease_of_inRange {mv : Nat} (hoff : s.power.on = false) (hlock : s.power.ovLock = true) (hlo : 46500 ≤ mv) (hhi : mv ≤ 57000)
    (straps : BitVec 6) : s.lockoutRelease mv straps = s.powerOn straps := by
  simp [State.lockoutRelease, hoff, hlock, hlo, hhi]

/-- An event that the island posts while the intake has room is behind those that wait there, with its time and step. -/
theorem State.post_own {e : Ev} (hsrc : e.source = 0x90) (hroom : s.log.intake.length < 64) : s.post e = { s with
    log := { s.log with intake := s.log.intake ++ [{ e with time := s.ts, step := s.laurel.step.num }] } } := by
  have hfull : ¬ 64 ≤ s.log.intake.length := by omega
  simp [State.post, Log.take, hsrc, hfull]

/-- What a command of the island's dictionary, log and links answers that changes neither power nor thermal control and meets nothing to wait for. -/
theorem State.served_eq {s' : State} (hb : s'.blocked = s.blocked) : s.served s' = .next { s' with
    pending := s.pending, ts := s.ts, hk := s.hk
    power := { s.power with paramWrites := s'.power.paramWrites, defaultsAtStart := s'.power.defaultsAtStart } } := by
  have hwaits : (s'.blocked && !s.blocked) = false := by simp [hb]
  simp [State.served, State.unlessBlocked, hwaits]

end

/-- Settles O17: a switch-on by either row, a switch-off, a lock-out while off, and an excursion. -/
theorem powerInputSwitchesModule : Obligations.PowerInputSwitchesModule := by
  refine ⟨fun s => ⟨fun mv straps hoff hlock hlo hhi => ?_, fun mv straps hoff hlock hlo hhi => ?_, fun tooHigh hon => ?_, fun tooHigh hoff => ?_⟩,
    fun s mv us hon hbypass hlo hhi hroom => ?_⟩
  · exact ⟨_, congrArg s.still (State.powerApplied_of_inRange hoff hlock hlo hhi straps), rfl, rfl, rfl, rfl, rfl⟩
  · exact ⟨_, congrArg s.still (State.lockoutRelease_of_inRange hoff hlock hlo hhi straps), rfl, rfl, rfl, rfl, rfl⟩
  · have hswitch : s.inputLockout tooHigh = s.powerOff tooHigh := if_pos hon
    exact ⟨_, congrArg s.still hswitch, rfl, rfl, rfl, rfl, rfl, rfl, rfl, rfl, rfl, rfl, rfl, rfl, rfl, State.port_linksDown _, rfl, rfl⟩
  · have hstays : s.inputLockout tooHigh = { s with power := { s.power with ovLock := tooHigh } } := if_neg (by simp [hoff])
    exact ⟨_, congrArg s.still hstays, rfl⟩
  · have hposts : s.inputLow mv us = s.post { code := 0x02, source := 0x90, args := [mv, us] } := by
      simp [State.inputLow, State.serves_iff.mpr ⟨hon, hbypass⟩, hlo, hhi]
    rw [State.post_own rfl hroom] at hposts
    exact ⟨_, (congrArg s.served hposts).trans (State.served_eq rfl), rfl, rfl⟩

end Sys2Proof.Machine
end

section
/-!
SUPPORT. Module reset is entered by each of its five causes, and left once nothing holds it (01 R14, R25 to R27, R37; 02 R59; 14 R459; 15 R491; 16 R502,
R503): O18.
-/

namespace Sys2Proof.Machine

/-- `t` is `s` with module reset just entered: pins and by-pass as in reset, the cause latched, links down, what was in flight gone, measurement stopped, and
the contents of tiles, memory tiers and Privet units as they were. -/
structure State.EntersReset (s t : State) (cause rail : Nat) : Prop where
  phase : t.power.phase = .inReset
  on : t.power.on = true
  readyN : t.power.readyN = false
  overtempN : t.power.overtempN = false
  bypassOpen : t.power.bypassOpen = false
  causeLatch : t.power.causeLatch = cause
  causeRail : t.power.causeRail = rail
  selfRefresh : t.power.selfRefresh = true
  slotId : t.power.slotId = s.power.slotId
  txns : t.txns = []
  launches : t.launches = []
  notices : t.notices = []
  ops : t.ops = []
  hostReads : t.hostReads = []
  dictQ : t.dictQ = []
  drain : t.drain = {}
  portsDown : ∀ p, (t.port p).up = false
  inUp : t.hr.inUp = false
  outUp : t.hr.outUp = false
  hk : t.hk = Hk.stopped
  tiles : t.tiles = s.tiles
  tiers : t.tiers = s.tiers
  units : t.units = s.units

section
variable {s t u : State} {cause rail : Nat}

/-- Module reset is entered at once by a module that is on and not in it. -/
theorem State.enterReset_entersReset (hon : s.power.on = true) (hph : s.power.phase ≠ .inReset) (cause rail : Nat) :
    s.EntersReset (s.enterReset cause rail) cause rail := by
  have hserved := s.sameBody_commitServed
  have henter : (!s.power.on || s.power.phase == .inReset) = false := by simp [hon, hph]
  unfold State.enterReset
  rw [henter]
  exact { phase := rfl, on := hon, readyN := rfl, overtempN := rfl, bypassOpen := rfl, causeLatch := rfl, causeRail := rfl, selfRefresh := rfl
          slotId := rfl, txns := rfl, launches := rfl, notices := rfl, ops := rfl, hostReads := rfl, dictQ := rfl, drain := rfl
          portsDown := State.port_linksDown _, inUp := rfl, outUp := rfl, hk := rfl, tiles := hserved.tiles, tiers := hserved.tiers, units := hserved.units }

/-- What is done before module reset takes effect may be whatever leaves the contents of the die and SLOT_ID alone. -/
theorem State.SameBody.entersReset (h : s.SameBody t) (hr : t.EntersReset u cause rail) : s.EntersReset u cause rail := by
  obtain ⟨n, hn⟩ := h.power
  exact { hr with
    slotId := hr.slotId.trans (by rw [hn]), tiles := hr.tiles.trans h.tiles, tiers := hr.tiers.trans h.tiers, units := hr.units.trans h.units }

theorem State.SameBody.enterReset_entersReset (h : s.SameBody t) (hon : t.power.on = true) (hph : t.power.phase ≠ .inReset) (cause rail : Nat) :
    s.EntersReset (t.enterReset cause rail) cause rail := h.entersReset (State.enterReset_entersReset hon hph cause rail)

theorem State.EntersReset.coldNext (h : s.EntersReset t cause rail) : s.EntersReset t.coldNext cause rail := { h with }

theorem State.pwrPresOpen_entersReset (hon : s.power.on = true) (hph : s.power.phase ≠ .inReset) :
    s.EntersReset (({ s with power := { s.power with pwrPresOpen := true } } : State).enterReset 2 0) 2 0 :=
  { State.enterReset_entersReset (s := { s with power := { s.power with pwrPresOpen := true } }) hon hph 2 0 with }

theorem State.moduleReset_entersReset (hon : s.power.on = true) (hph : s.power.phase ≠ .inReset) {ns : Nat} {taken : Bool}
    (hpulse : 10000 ≤ ns ∨ 1000 ≤ ns ∧ taken = true) : s.EntersReset (s.moduleReset ns taken) 1 0 := by
  have htaken : (decide (10000 ≤ ns) || (decide (1000 ≤ ns) && taken)) = true := by simpa using hpulse
  unfold State.moduleReset
  rw [htaken]
  exact { State.enterReset_entersReset (s := { s with power := { s.power with modReset := true } }) hon hph 1 0 with }

/-- The loss of the always-on rail: reset is entered with writes to the parameter memory torn, cause 0, and a cold start comes next. -/
theorem State.railLoss_entersReset (hon : s.power.on = true) (hph : s.power.phase ≠ .inReset) : s.EntersReset s.railLoss 0 0 ∧ s.railLoss.power.coldNext = true := by
  have htorn := s.sameBody_tearServed
  have hbase : s.SameBody { s.tearServed with power := { s.power with paramWrites := s.tearServed.power.paramWrites } } :=
    ⟨htorn.tiles, htorn.tiers, htorn.units, _, rfl⟩
  have hreset := (hbase.enterReset_entersReset hon hph 0 0).coldNext
  unfold State.railLoss
  rw [if_pos hon]
  exact ⟨{ hreset with causeLatch := rfl, causeRail := rfl }, rfl⟩

/-- A rail commanded on fails: the log has its event, where the island can enter it, before reset is entered, and a cold start comes next. -/
theorem State.railFault_entersReset (hon : s.power.on = true) (hph : s.power.phase ≠ .inReset) {rail : Nat} (hrail : s.power.railOn rail = true)
    (status cause causeRail : Nat) : s.EntersReset (s.railFault rail status cause causeRail) cause causeRail ∧
      (s.railFault rail status cause causeRail).power.coldNext = true := by
  have hlogged (e : Ev) : s.SameBody { (if s.serves then s.record e else s) with power := s.power } := by
    split
    · have h := s.sameBody_record e
      exact ⟨h.tiles, h.tiers, h.units, _, rfl⟩
    · exact ⟨rfl, rfl, rfl, _, rfl⟩
  unfold State.railFault
  rw [hon, hrail]
  exact ⟨((hlogged _).enterReset_entersReset hon hph cause causeRail).coldNext, rfl⟩

theorem State.coreRailLoss_entersReset (hon : s.power.on = true) (hph : s.power.phase ≠ .inReset) (hcore : s.power.coreRail = true) :
    s.EntersReset s.coreRailLoss 3 0 ∧ s.coreRailLoss.power.coldNext = true := by
  obtain ⟨h, hcold⟩ := State.railFault_entersReset (s := s.draw.2) hon hph (rail := 1) hcore (s.draw.1.toNat % 65536) 3 0
  exact ⟨s.sameBody_draw.entersReset h, hcold⟩

/-- A release that leaves nothing to hold the module in reset: SLOT_ID is sampled, and the kind of the start that is due is chosen. -/
theorem State.leaveReset_of_free (hon : s.power.on = true) (hph : s.power.phase = .inReset) (hpin : s.power.modReset = false)
    (hpres : s.power.pwrPresOpen = false) (straps : BitVec 6) : s.leaveReset straps = { s with power := { s.power with
      slotId := straps.toNat, phase := if s.power.readyOnce && !s.power.coldNext then .warm else .cold } } := by
  simp [State.leaveReset, hon, hph, hpin, hpres]

theorem State.leaveReset_of_pin (hpin : s.power.modReset = true) (straps : BitVec 6) : s.leaveReset straps = s := by
  simp [State.leaveReset, hpin]

end

/-- Settles O18: the five causes by their lemmas above, and the three ways that a release ends. -/
theorem moduleResetComesAndGoes : Obligations.ModuleResetComesAndGoes := by
  refine ⟨fun s c cause rail hon hph hcause => ?_, fun s straps hon hph => ⟨fun hpres => ?_, fun hpres hpin => ?_, fun hpres hpin => ?_⟩⟩
  · obtain ⟨t, hc, h, hcold⟩ : ∃ t, exec c s = s.still t ∧ s.EntersReset t cause rail ∧ (cause = 0 ∨ cause = 3 ∨ cause = 4 → t.power.coldNext = true) := by
      rcases hcause with ⟨rfl, rfl, rfl⟩ | ⟨⟨ns, b, rfl, hpulse⟩, rfl, rfl⟩ | ⟨rfl, hcore, rfl, rfl⟩ | ⟨⟨r, st, rfl, hrail, rfl⟩, rfl⟩ | ⟨rfl, rfl, rfl⟩
      · exact ⟨_, rfl, State.pwrPresOpen_entersReset hon hph, by simp⟩
      · exact ⟨_, rfl, State.moduleReset_entersReset hon hph hpulse, by simp⟩
      · have h := State.coreRailLoss_entersReset hon hph hcore
        exact ⟨_, rfl, h.1, fun _ => h.2⟩
      · have h := State.railFault_entersReset hon hph hrail st.toNat 4 r.val
        exact ⟨_, rfl, h.1, fun _ => h.2⟩
      · have h := State.railLoss_entersReset hon hph
        exact ⟨_, rfl, h.1, fun _ => h.2⟩
    exact ⟨_, hc, h.phase, h.on, h.readyN, h.overtempN, h.bypassOpen, h.causeLatch, h.causeRail, h.selfRefresh, h.slotId, hcold, h.txns, h.launches,
      h.notices, h.ops, h.hostReads, h.dictQ, h.drain, h.portsDown, h.inUp, h.outUp, h.hk, rfl, h.tiles, h.tiers, h.units⟩
  · have hfree := State.leaveReset_of_free (s := { s with power := { s.power with modReset := false } }) hon hph rfl hpres straps
    exact ⟨_, congrArg s.still hfree, rfl⟩
  · have hfree := State.leaveReset_of_free (s := { s with power := { s.power with pwrPresOpen := false } }) hon hph hpin rfl straps
    exact ⟨_, congrArg s.still ((if_pos hpres).trans hfree), rfl⟩
  · have hheld := State.leaveReset_of_pin (s := { s with power := { s.power with pwrPresOpen := false } }) hpin straps
    exact ⟨_, congrArg s.still ((if_pos hpres).trans hheld), rfl⟩

end Sys2Proof.Machine
end

section
/-!
SUPPORT. What the vector engine's lane-wise rows and VREDUCE land (04 R120; 05 R160, R161): O13.
-/

namespace Sys2Proof.Machine

/-! ## What an issue answers (04 R116) -/

/-- Engine `e` of a tile about to do the work of its due command. -/
def State.issueStart (s : State) (t : TileId) (e : EngId) : Work :=
  { s.begin t.val with t := (s.tile t.val).setEngine e { (s.tile t.val).engine e with zeroLen := false } }

theorem State.issue_eq {s : State} {t : TileId} {e : EngId} {q : QCmd} {f : QCmd → List Nat → Work → Option Work} {w : Work} (hi : issues s t e q)
    (hf : f q ((s.tile t.val).engine e).indices (s.issueStart t e) = some w) : s.issue t e f = s.fromWork t.val { w with t := w.t.issued e q } := by
  obtain ⟨hready, hdue⟩ := hi
  simp only [State.issueStart, State.begin] at hf
  simp [State.issue, hready, hdue, State.begin, hf]

/-- The row of an engine's due command waits for nothing; the tile is as the operation's work leaves it. -/
theorem answers_of_issue {c : Instr} {s : State} {t : TileId} {e : EngId} {q : QCmd} {f : QCmd → List Nat → Work → Option Work} {w : Work}
    {P : State → Prop} (hi : issues s t e q) (hc : exec c s = s.inner (s.issue t e f))
    (hf : f q ((s.tile t.val).engine e).indices (s.issueStart t e) = some w) (hP : ∀ u : State, u.tile t.val = w.t.issued e q → P u) : answers c s P := by
  rw [State.issue_eq hi hf] at hc
  have hsame := s.sameFns_fromWork t.val { w with t := w.t.issued e q }
  exact answers_of_inner hc hsame.acct hsame.blocked (hP _ (s.fromWork_tile t.val _))

/-! ## The issue of a lane operation -/

/-- A read with new intent changes the hazard record, the kernel's marks and the counters alone (04 R132). -/
theorem Tile.checkRead_frame (t : Tile) (isNew : Bool) (eng : EngId) (cmd space lo hi : Nat) :
    ∃ h k c, t.checkRead isNew eng cmd space lo hi = { t with hazard := h, kern := k, ctl := c } := by
  unfold Tile.checkRead Tile.meet Tile.bump
  repeat' split
  all_goals exact ⟨_, _, _, rfl⟩

theorem Tile.saturate_frame (t : Tile) (cls n : Nat) : t.saturate cls n = { t with kern := (t.saturate cls n).kern } := by
  unfold Tile.saturate
  split <;> rfl

theorem Tile.tagWrite_frame (t : Tile) (eng : EngId) (cmd space lo hi land : Nat) :
    t.tagWrite eng cmd space lo hi land = { t with htags := (t.tagWrite eng cmd space lo hi land).htags } := by
  unfold Tile.tagWrite
  split <;> rfl

/-- The reads of a lane operation's source registers, in order. -/
def Work.vecReads (w : Work) (q : QCmd) (op : VOp) (ra rb rc : Nat) (newA newB newC : Bool) : Work :=
  let w := w.check newA 1 q.idx 1 ra (ra + 1)
  let w := if 2 ≤ vecArity op then w.check newB 1 q.idx 1 rb (rb + 1) else w
  if 3 ≤ vecArity op then w.check newC 1 q.idx 1 rc (rc + 1) else w

theorem Work.vecReads_frame (w : Work) (q : QCmd) (op : VOp) (ra rb rc : Nat) (newA newB newC : Bool) :
    ∃ h k c, (w.vecReads q op ra rb rc newA newB newC).t = { w.t with hazard := h, kern := k, ctl := c } := by
  have hcheck (w : Work) (n : Bool) (r : Nat) : ∃ h k c, (w.check n 1 q.idx 1 r (r + 1)).t = { w.t with hazard := h, kern := k, ctl := c } :=
    w.t.checkRead_frame n 1 q.idx 1 r (r + 1)
  have hcheckIf (p : Prop) [Decidable p] (w : Work) (n : Bool) (r : Nat) :
      ∃ h k c, (if p then w.check n 1 q.idx 1 r (r + 1) else w).t = { w.t with hazard := h, kern := k, ctl := c } := by
    split
    · exact hcheck w n r
    · exact ⟨_, _, _, rfl⟩
  obtain ⟨_, _, _, ha⟩ := hcheck w newA ra
  obtain ⟨_, _, _, hb⟩ := hcheckIf (2 ≤ vecArity op) (w.check newA 1 q.idx 1 ra (ra + 1)) newB rb
  obtain ⟨_, _, _, hc⟩ := hcheckIf (3 ≤ vecArity op) _ newC rc
  exact ⟨_, _, _, hc.trans (by rw [hb, ha])⟩

/-- The poison flags of a register's grains. -/
def Tile.vflags (t : Tile) (r : Nat) : List Bool := (List.range 8).map fun g => t.vpoison r g

/-- The result of a lane operation on registers of a tile. -/
def Tile.laneResult (t : Tile) (op : VOp) (half : Bool) (ra rb rc : Nat) : List Byte × List Bool × Nat :=
  vecResult op half (t.vbytes ra) (t.vbytes rb) (t.vbytes rc) (t.vflags ra) (t.vflags rb) (t.vflags rc)

/-- A lane operation whose sources have been read in beat `k` schedules its landing. -/
def Work.landVec (w : Work) (q : QCmd) (op : VOp) (half : Bool) (rd ra rb rc k : Nat) : Work :=
  let r := w.t.laneResult op half ra rb rc
  ((w.saturate 4 r.2.2).addLand ⟨k + vecLatency op, k, .vreg rd 0 r.1 r.2.1⟩).tag 1 q.idx 1 rd (rd + 1) (k + vecLatency op)

theorem issueVec_eq (q : QCmd) (op : VOp) (half : Bool) (rd ra rb rc : Nat) (newA newB newC : Bool) (w : Work) :
    issueVec q op half rd ra rb rc newA newB newC w =
      (w.vecReads q op ra rb rc newA newB newC).landVec q op half rd ra rb rc w.t.sched.kbeat := rfl

theorem Work.landVec_lands (w : Work) (q : QCmd) (op : VOp) (half : Bool) (rd ra rb rc k : Nat) :
    (w.landVec q op half rd ra rb rc k).t.lands = w.t.lands ++
      [⟨k + vecLatency op, k, .vreg rd 0 (w.t.laneResult op half ra rb rc).1 (w.t.laneResult op half ra rb rc).2.1⟩] := by
  simp only [Work.landVec, Work.tag, Work.addLand, Work.saturate]
  rw [Tile.tagWrite_frame, Tile.saturate_frame]

/-- A lane operation adds one landing: its result on the registers as they are at its issue, after its latency. -/
theorem issueVec_lands (q : QCmd) (op : VOp) (half : Bool) (rd ra rb rc : Nat) (newA newB newC : Bool) (w : Work) :
    (issueVec q op half rd ra rb rc newA newB newC w).t.lands = w.t.lands ++ [⟨w.t.sched.kbeat + vecLatency op, w.t.sched.kbeat,
      .vreg rd 0 (w.t.laneResult op half ra rb rc).1 (w.t.laneResult op half ra rb rc).2.1⟩] := by
  obtain ⟨h, k, c, hreads⟩ := w.vecReads_frame q op ra rb rc newA newB newC
  rw [issueVec_eq, Work.landVec_lands, hreads]
  rfl

/-- Each of the rows of 04 R120 for a lane operation or VREDUCE issues the operation that is its own. -/
theorem exec_vecRow (s : State) (t : TileId) (op : VOp) (half : Bool) (rd ra rb rc : Fin 32) (newA newB newC : Bool) :
    ∃ f, exec (rowOf t 1 (.vec op half rd ra rb rc newA newB newC)) s = s.inner (s.issue t 1 f) ∧
      ∀ (q : QCmd) (idx : List Nat) (w : Work), q.cmd.op = .vec op half rd ra rb rc newA newB newC →
        f q idx w = some (issueVec q op half rd.val ra.val rb.val rc.val newA newB newC w) := by
  cases op <;> exact ⟨_, rfl, fun q idx w hq => by simp only [hq]⟩

/-- What the row of a due lane operation answers: its result on the tile's registers is the one landing added. -/
theorem answers_of_vec {s : State} {t : TileId} {q : QCmd} {op : VOp} {half : Bool} {rd ra rb rc : Fin 32} {newA newB newC : Bool} {P : State → Prop}
    (hi : issues s t 1 q) (hq : q.cmd.op = .vec op half rd ra rb rc newA newB newC)
    (hP : ∀ u : State, (u.tile t.val).lands = (s.tile t.val).lands ++
      [⟨(s.tile t.val).sched.kbeat + vecLatency op, (s.tile t.val).sched.kbeat, .vreg rd.val 0
        ((s.tile t.val).laneResult op half ra.val rb.val rc.val).1 ((s.tile t.val).laneResult op half ra.val rb.val rc.val).2.1⟩] → P u) :
    answers (rowOf t 1 q.cmd.op) s P := by
  obtain ⟨f, hrow, hf⟩ := exec_vecRow s t op half rd ra rb rc newA newB newC
  rw [← hq] at hrow
  refine answers_of_issue hi hrow (hf q _ _ hq) fun u hu => hP u ?_
  calc (u.tile t.val).lands
      = (issueVec q op half rd.val ra.val rb.val rc.val newA newB newC (s.issueStart t 1)).t.lands := by rw [hu]; rfl
    _ = _ := issueVec_lands ..

/-! ## The result of a lane operation -/

/-- Of blocks of one length put one after another, the block at its place. -/
theorem take_drop_flatMap {α β : Type} {n : Nat} {f : α → List β} (hf : ∀ a, (f a).length = n) (l : List α) {i : Nat} (hi : i < l.length) :
    ((l.flatMap f).drop (n * i)).take n = f l[i] := by
  induction l generalizing i with
  | nil => simp at hi
  | cons a l ih =>
    cases i with
    | zero => simp [List.take_left' (hf a)]
    | succ i =>
      have hskip : n * (i + 1) = (f a).length + n * i := by rw [hf, Nat.mul_succ, Nat.add_comm]
      simpa [hskip, List.drop_length_add_append] using ih (by simpa using hi)

theorem length_flatMap_of_length {α β : Type} {n : Nat} {f : α → List β} (hf : ∀ a, (f a).length = n) (l : List α) :
    (l.flatMap f).length = l.length * n := by
  induction l with
  | nil => rw [List.flatMap_nil, List.length_nil, List.length_nil, Nat.zero_mul]
  | cons a l ih => rw [List.flatMap_cons, List.length_append, hf, ih, List.length_cons, Nat.succ_mul, Nat.add_comm]

theorem laneCount_mul_laneBytes (half : Bool) : laneCount half * laneBytes half = 512 := by cases half <;> rfl

/-- Bit 0 of VCMP's pattern is the comparison (log 14). -/
theorem maskCode_mod_two (half v : Bool) : maskCode half v % 2 = b2n v := by
  cases v <;> simp [maskCode, b2n]

/-- The model's lane operation is the one that 05 R160 and R161 describe. -/
theorem laneSays_laneOp (op : VOp) (half : Bool) (a b c : Nat) : laneSays op half a b c (laneOp op half a b c).1 := by
  cases op with
  | cmp rel =>
    simp only [laneSays, laneOp, maskCode_mod_two]
    cases relHolds rel ((laneFp half).decode a) ((laneFp half).decode b) <;> simp [b2n]
  | redSum | redMax => trivial
  | _ => rfl

section
variable {op : VOp} (hsum : op ≠ .redSum) (hmax : op ≠ .redMax) (half : Bool) (a b c : List Byte) (pa pb pc : List Bool)
include hsum hmax

theorem vecResult_bytes : (vecResult op half a b c pa pb pc).1 = (List.range (laneCount half)).flatMap fun i =>
    leBytes (laneBytes half) (laneOp op half ((lanes half a).getD i 0) ((lanes half b).getD i 0) ((lanes half c).getD i 0)).1 := by
  simp [vecResult, hsum, hmax, List.flatMap_map]

theorem vecResult_length : (vecResult op half a b c pa pb pc).1.length = 512 := by
  rw [vecResult_bytes hsum hmax, length_flatMap_of_length fun _ => length_leBytes _ _, List.length_range, laneCount_mul_laneBytes]

theorem vecResult_lane {i : Nat} (hi : i < laneCount half) :
    (((vecResult op half a b c pa pb pc).1.drop (laneBytes half * i)).take (laneBytes half)) =
      leBytes (laneBytes half) (laneOp op half ((lanes half a).getD i 0) ((lanes half b).getD i 0) ((lanes half c).getD i 0)).1 := by
  rw [vecResult_bytes hsum hmax, take_drop_flatMap (fun _ => length_leBytes _ _) _ (by simpa using hi), List.getElem_range]

theorem vecResult_flags : (vecResult op half a b c pa pb pc).2.1 = (List.range 8).map fun g =>
    pa.getD g false || (decide (2 ≤ vecArity op) && pb.getD g false) || (decide (3 ≤ vecArity op) && pc.getD g false) := by
  simp [vecResult, hsum, hmax]

end

theorem Tile.vflags_getD (t : Tile) (r : Nat) {g : Nat} (hg : g < 8) : (t.vflags r).getD g false = t.vpoison r g := by
  simp [Tile.vflags, List.getD_eq_getElem?_getD, hg]

/-- A grain of the result of a lane-wise operation is poisoned exactly when a source grain that it reads is. -/
theorem Tile.laneResult_flag (t : Tile) {op : VOp} (hsum : op ≠ .redSum) (hmax : op ≠ .redMax) (half : Bool) (ra rb rc : Nat) {g : Nat} (hg : g < 8) :
    (t.laneResult op half ra rb rc).2.1.getD g false =
      (t.vpoison ra g || (decide (2 ≤ vecArity op) && t.vpoison rb g) || (decide (3 ≤ vecArity op) && t.vpoison rc g)) := by
  rw [Tile.laneResult, vecResult_flags hsum hmax, ← t.vflags_getD ra hg, ← t.vflags_getD rb hg, ← t.vflags_getD rc hg]
  simp [List.getD_eq_getElem?_getD, hg]

/-- VREDUCE's result is its reduction in lane 0, poisoned if any source grain is. -/
theorem Tile.laneResult_reduce (t : Tile) (m half : Bool) (ra rb rc : Nat) :
    (t.laneResult (if m then .redMax else .redSum) half ra rb rc).1 = leBytes (laneBytes half) (reduce m half (lanes half (t.vbytes ra))).1 ∧
      (t.laneResult (if m then .redMax else .redSum) half ra rb rc).2.1 = [(List.range 8).any fun g => t.vpoison ra g] := by
  have hany : (t.vflags ra).any id = (List.range 8).any fun g => t.vpoison ra g := by
    simp only [Tile.vflags, List.any_map]
    rfl
  rw [← hany]
  cases m <;> exact ⟨rfl, rfl⟩

/-- The sum of FP32 lanes is the pairwise tree of seven levels over their codes (05 R160). -/
theorem reduce_sum (l : List Nat) : (reduce false false l).1 = treeSum 7 (l.map fun c => (BitVec.ofNat 32 c).toNat) := by
  simp [reduce, toLane, fromLane]

/-- Settles O13: the one landing that the issue adds, read lane by lane and flag by flag; VREDUCE's is its reduction. -/
theorem laneAndReduceOpsLand : Obligations.LaneAndReduceOpsLand := by
  refine ⟨fun s t q x k op h rd ra rb rc na nb nc hi hx hk hq hsum hmax => ?_, fun s t q x k m h rd ra rb rc na nb nc hi hx hk hq => ?_⟩
  · subst hk hx
    refine answers_of_vec hi hq fun u hlands => ⟨_, _, hlands, vecResult_length hsum hmax .., fun i hlane _ => ?_, ?_, fun g hg => ?_⟩
    · exact ⟨_, vecResult_lane hsum hmax h _ _ _ _ _ _ hlane, laneSays_laneOp ..⟩
    · rw [Tile.laneResult, vecResult_flags hsum hmax, List.length_map, List.length_range]
    · exact Tile.laneResult_flag _ hsum hmax h _ _ _ hg
  · subst hk hx
    have hrow : rowOf t 1 q.cmd.op = .vreduce t := by
      rw [hq]
      cases m <;> rfl
    have hlatency : vecLatency (if m then .redMax else .redSum) = 9 := by cases m <;> rfl
    obtain ⟨hbytes, hflags⟩ := (s.tile t.val).laneResult_reduce m h ra.val rb.val rc.val
    rw [← hrow]
    refine answers_of_vec hi hq fun u hlands => ⟨⟨_, ?_, fun _ => hbytes⟩, reduce_sum⟩
    rw [hlands, hlatency, hflags]

end Sys2Proof.Machine
end

section
/-!
SUPPORT. What the issue of a gather engine's operation reads, records and refuses (04 R120; 06 R184, R193 to R200): O14. None of them asks for an access at its
issue; an index list is read from the grain that holds its address (log 103).
-/

namespace Sys2Proof.Machine

/-! ## Work that leaves the accesses in flight alone -/

/-- Work that has asked for no access and has left the kernel in progress as it was. -/
structure Work.Quiet (w w' : Work) : Prop where
  reqs : w'.reqs = w.reqs
  kern : w'.t.kern = w.t.kern

theorem State.fromWork_txns {s : State} {t : Nat} {w : Work} (hreqs : w.reqs = []) (hstopped : w.t.kern.stopped = (s.tile t).kern.stopped) :
    (s.fromWork t w).txns = s.txns := by
  have hposts : ((s.setTile t w.t).postAll w.evs).txns = s.txns := by rw [State.postAll_frame]; rfl
  unfold State.fromWork
  simp only [hreqs, hstopped, Bool.and_not_self, List.foldl_nil, Bool.false_eq_true, if_false]
  split <;> exact hposts

/-- The row of an engine's due command whose work is quiet: the tile is as that work leaves it, and the accesses in flight are as they were. -/
theorem answers_of_quietIssue {c : Instr} {s : State} {t : TileId} {e : EngId} {q : QCmd} {f : QCmd → List Nat → Work → Option Work} {w : Work}
    {P : State → Prop} (hi : issues s t e q) (hc : exec c s = s.inner (s.issue t e f))
    (hf : f q ((s.tile t.val).engine e).indices (s.issueStart t e) = some w) (hw : (s.issueStart t e).Quiet w)
    (hP : ∀ u : State, u.tile t.val = w.t.issued e q → u.txns = s.txns → P u) : answers c s P := by
  rw [State.issue_eq hi hf] at hc
  have hsame := s.sameFns_fromWork t.val { w with t := w.t.issued e q }
  have htxns : (s.fromWork t.val { w with t := w.t.issued e q }).txns = s.txns :=
    State.fromWork_txns (w := { w with t := w.t.issued e q }) hw.reqs (congrArg Kern.stopped hw.kern :)
  exact answers_of_inner hc hsame.acct hsame.blocked (hP _ (s.fromWork_tile t.val _) htxns)

/-! ## Counters and hazard tags -/

theorem Work.bump_frame (w : Work) (off n : Nat) : ∃ c, w.bump off n = { w with t := { w.t with ctl := c } } := by
  unfold Work.bump Tile.bump
  split
  · exact ⟨w.t.ctl, rfl⟩
  · exact ⟨_, rfl⟩

theorem Tile.count_bump_self (t : Tile) (off : Nat) {n : Nat} (hn : n ≠ 0) : (t.bump off n).count off = satAdd 32 (t.count off) n := by
  simp [Tile.bump, Tile.count, hn]

theorem Tile.count_bump_ne (t : Tile) {off off' : Nat} (n : Nat) (h : off' ≠ off) : (t.bump off n).count off' = t.count off' := by
  unfold Tile.bump Tile.count
  split
  · rfl
  · exact SMap.get_mod_ne 0 t.ctl.cnt (satAdd 32 · n) h

/-- The check of a table's strides is one of two: nothing, or a count in MISALIGNED. -/
theorem Work.tableCount_cases (w : Work) (got : List Piece) : w.tableCount got = w ∨ w.tableCount got = w.bump cMisaligned 1 := by
  unfold Work.tableCount Work.strideCount
  split
  · exact .inl rfl
  · split
    · exact .inr rfl
    · exact .inl rfl

theorem Work.tableCount_frame (w : Work) (got : List Piece) : ∃ c, w.tableCount got = { w with t := { w.t with ctl := c } } := by
  rcases w.tableCount_cases got with h | h
  · exact ⟨w.t.ctl, h⟩
  · rw [h]
    exact w.bump_frame cMisaligned 1

/-- DESC_BAD does not count the strides of a table. -/
theorem Work.tableCount_descBad (w : Work) (got : List Piece) : (w.tableCount got).t.count cDescBad = w.t.count cDescBad := by
  rcases w.tableCount_cases got with h | h
  · rw [h]
  · rw [h]
    exact w.t.count_bump_ne 1 (by decide)

/-- Tagging the locations that an operation will write changes the tags alone (04 R129). -/
theorem Work.tags_frame (w : Work) (eng : EngId) (cmd space : Nat) (lo hi land : Nat → Nat) (l : List Nat) :
    ∃ h, l.foldl (fun w j => w.tag eng cmd space (lo j) (hi j) (land j)) w = { w with t := { w.t with htags := h } } := by
  refine foldl_rel (r := fun w w' : Work => ∃ h, w' = { w with t := { w.t with htags := h } }) (fun w => ⟨w.t.htags, rfl⟩) ?_ (fun w j => ?_) l w
  · rintro x y z ⟨h, rfl⟩ ⟨h', rfl⟩
    exact ⟨h', rfl⟩
  · exact ⟨_, congrArg (fun t => { w with t := t }) (w.t.tagWrite_frame ..)⟩

/-! ## An operation with a sound table -/

/-- Work that has recorded an operation of `n` indices, with its tally and order, and has scheduled the reads of its index list at `a`, and no more. -/
structure Work.Indexes (w w' : Work) (q : QCmd) (a n : Nat) (isNew : Bool) (tally : Option (Fin 8)) (ord : Order) : Prop extends w.Quiet w' where
  reads : w'.t.reads = w.t.reads ++ indexReads q w.t.nextOp w.t.sched.kbeat a n isNew
  ops : ∃ o, w'.t.ops = w.t.ops ++ [o] ∧ o.id = w.t.nextOp ∧ o.tally = tally ∧ o.ord = ord ∧ o.left = indexGrains n

section
variable {ring : RingAt} {q : QCmd} {idx : List Nat} {n : Nat} {ia a : Addr} {isNew : Bool} {tally : Fin 8} {ord : Order} {d : TDesc} (w : Work)
  (hn : 0 < n)
include hn

theorem issueGremote_indexes (htable : tableOf ring.n q.got = .ok d) (hdims : d.dims ≠ 0) (hrow : 0 < rowGrains d) (hmax : rowGrains d ≤ 64) :
    w.Indexes (issueGremote ring q idx n ia a tally ord isNew w) q (locOf ia idx / 64 * 64) n isNew (some tally) ord := by
  have hsound : (d.dims = 0 || rowGrains d = 0 || decide (64 < rowGrains d)) = false := by simp [hdims]; omega
  obtain ⟨c, hcount⟩ := w.tableCount_frame q.got
  unfold issueGremote
  simp only [if_neg (Nat.ne_of_gt hn), htable, hsound, hcount]
  exact ⟨⟨rfl, rfl⟩, rfl, _, rfl, rfl, rfl, rfl, rfl⟩

theorem issueScatter_indexes {comb : Option Comb} (htable : tableOf ring.n q.got = .ok d) (hdims : d.dims ≠ 0) (hfmt : comb.isSome = true → d.fmt = 0) :
    w.Indexes (issueScatter ring q idx comb n ia a tally ord isNew w) q (locOf ia idx / 64 * 64) n isNew (some tally) ord := by
  have hsound : (d.dims = 0 || (comb.isSome && d.fmt != 0)) = false := by simpa [hdims] using hfmt
  obtain ⟨c, hcount⟩ := w.tableCount_frame q.got
  unfold issueScatter
  simp only [if_neg (Nat.ne_of_gt hn), htable, hsound, hcount]
  exact ⟨⟨rfl, rfl⟩, rfl, _, rfl, rfl, rfl, rfl, rfl⟩

/-- GLOCAL is synchronous: it has no tally, and tags its rows' places at once. -/
theorem issueGlocal_indexes (htable : tableOf ring.n q.got = .ok d) (hdims : d.dims ≠ 0) (hlocal : d.isLocal = true) (hrow : rowGrains d = 1) :
    w.Indexes (issueGlocal ring q idx n ia a isNew w) q (locOf ia idx / 64 * 64) n isNew none .relaxed := by
  have hsound : (d.dims = 0 || !d.isLocal || rowGrains d != 1) = false := by simp [hdims, hlocal, hrow]
  obtain ⟨c, hcount⟩ := w.tableCount_frame q.got
  unfold issueGlocal
  simp only [if_neg (Nat.ne_of_gt hn), htable, hsound, hcount]
  obtain ⟨h, htags⟩ := Work.tags_frame _ 2 q.idx 0 (fun j => locOf a idx + 64 * j) (fun j => locOf a idx + 64 * j + 64)
    (fun j => w.t.sched.kbeat + 6 + j / 4) (List.range n)
  rw [if_neg Bool.false_ne_true, htags]
  exact ⟨⟨rfl, rfl⟩, rfl, _, rfl, rfl, rfl, rfl, rfl⟩

end

/-! ## An operation with a malformed table -/

/-- Work that has counted one malformed descriptor and has scheduled no read. -/
structure Work.Refuses (w w' : Work) : Prop extends w.Quiet w' where
  reads : w'.t.reads = w.t.reads
  descBad : w'.t.count cDescBad = satAdd 32 (w.t.count cDescBad) 1

/-- Counting a malformed descriptor after the check of its strides. -/
theorem Work.refuses_bump (w : Work) (got : List Piece) : w.Refuses ((w.tableCount got).bump cDescBad 1) := by
  have hdesc : ((w.tableCount got).bump cDescBad 1).t.count cDescBad = satAdd 32 (w.t.count cDescBad) 1 := by
    rw [← w.tableCount_descBad got]
    exact Tile.count_bump_self _ _ Nat.one_ne_zero
  obtain ⟨c, hcount⟩ := w.tableCount_frame got
  obtain ⟨c', hbump⟩ := (w.tableCount got).bump_frame cDescBad 1
  have hctl : (w.tableCount got).bump cDescBad 1 = { w with t := { w.t with ctl := c' } } := by rw [hbump, hcount]
  rw [hctl] at hdesc ⊢
  exact ⟨⟨rfl, rfl⟩, rfl, hdesc⟩

section
variable {ring : RingAt} {q : QCmd} (idx : List Nat) {n : Nat} (ia a : Addr) (isNew : Bool) (tally : Fin 8) (ord : Order) (w : Work)
  (hn : 0 < n) (htable : tableOf ring.n q.got = .bad)
include hn htable

theorem issueGlocal_refuses : w.Refuses (issueGlocal ring q idx n ia a isNew w) := by
  unfold issueGlocal
  simp only [if_neg (Nat.ne_of_gt hn), htable]
  exact { w.refuses_bump q.got with }

theorem issueGremote_refuses : w.Refuses (issueGremote ring q idx n ia a tally ord isNew w) := by
  unfold issueGremote
  simp only [if_neg (Nat.ne_of_gt hn), htable]
  exact { w.refuses_bump q.got with }

theorem issueScatter_refuses (comb : Option Comb) : w.Refuses (issueScatter ring q idx comb n ia a tally ord isNew w) := by
  unfold issueScatter
  simp only [if_neg (Nat.ne_of_gt hn), htable]
  exact { w.refuses_bump q.got with }

end

/-! ## The rows -/

/-- What the gather engine does at the issue of a command: one definition for its four rows, each of which recognises its own operation. -/
def gatherWork (ring : RingAt) (q : QCmd) (idx : List Nat) (w : Work) : Option Work :=
  match q.cmd.op with
  | .glocal n ia dst _ newIdx _ => some (issueGlocal ring q idx n ia dst newIdx w)
  | .gremote n ia dst _ tally ord newIdx => some (issueGremote ring q idx n ia dst tally ord newIdx w)
  | .scatter comb n ia src _ tally ord newIdx => some (issueScatter ring q idx comb n ia src tally ord newIdx w)
  | _ => none

section
variable {q : QCmd} {n : Nat} {ia a : Addr} {tb : DescAt} {isNew b : Bool} {tally : Fin 8} {ord : Order} {comb : Option Comb} {ring : RingAt} {idx : List Nat}
  {w : Work}

theorem gatherWork_glocal (hq : q.cmd.op = .glocal n ia a tb isNew b) : gatherWork ring q idx w = some (issueGlocal ring q idx n ia a isNew w) := by
  simp only [gatherWork, hq]

theorem gatherWork_gremote (hq : q.cmd.op = .gremote n ia a tb tally ord isNew) :
    gatherWork ring q idx w = some (issueGremote ring q idx n ia a tally ord isNew w) := by
  simp only [gatherWork, hq]

theorem gatherWork_scatter (hq : q.cmd.op = .scatter comb n ia a tb tally ord isNew) :
    gatherWork ring q idx w = some (issueScatter ring q idx comb n ia a tally ord isNew w) := by
  simp only [gatherWork, hq]

end

/-- Each row of 04 R120 for an operation of the gather engine issues the operation that is its own. -/
theorem exec_gatherRow {s : State} {q : QCmd} {idx : List Nat} {w w' : Work} (h : gatherWork s.ring q idx w = some w') (t : TileId) :
    ∃ f, exec (rowOf t 2 q.cmd.op) s = s.inner (s.issue t 2 f) ∧ f q idx w = some w' := by
  unfold gatherWork at h
  split at h
  case h_1 hq => exact ⟨_, by rw [hq]; rfl, by simp only [hq]; exact h⟩
  case h_2 hq => exact ⟨_, by rw [hq]; rfl, by simp only [hq]; exact h⟩
  case h_3 comb _ _ _ _ _ _ _ hq =>
    cases comb with
    | none => exact ⟨_, by rw [hq]; rfl, by simp only [hq]; exact h⟩
    | some c => exact ⟨_, by rw [hq]; rfl, by simp only [hq]; exact h⟩
  case h_4 => cases h

section
variable {s : State} {t : TileId} {q : QCmd} {w : Work} (hi : issues s t 2 q)
  (hwork : gatherWork s.ring q ((s.tile t.val).engine 2).indices (s.issueStart t 2) = some w)
include hi hwork

/-- What the row of a due operation answers that records itself and schedules its index reads. -/
theorem answers_of_indexes {a n : Nat} {isNew : Bool} {tally : Option (Fin 8)} {ord : Order}
    (hw : (s.issueStart t 2).Indexes w q a n isNew tally ord) : answers (rowOf t 2 q.cmd.op) s fun u =>
      (u.tile t.val).reads = (s.tile t.val).reads ++ indexReads q (s.tile t.val).nextOp (s.tile t.val).sched.kbeat a n isNew ∧ u.txns = s.txns ∧
        ∃ o, (u.tile t.val).ops = (s.tile t.val).ops ++ [o] ∧ o.id = (s.tile t.val).nextOp ∧ o.tally = tally ∧ o.ord = ord ∧
          o.left = indexGrains n := by
  obtain ⟨f, hrow, hf⟩ := exec_gatherRow hwork t
  refine answers_of_quietIssue hi hrow hf hw.toQuiet fun u hu htxns => ?_
  rw [hu]
  exact ⟨hw.reads, htxns, hw.ops⟩

/-- What the row of a due operation answers that is refused. -/
theorem answers_of_refuses (hw : (s.issueStart t 2).Refuses w) : answers (rowOf t 2 q.cmd.op) s fun u =>
    (u.tile t.val).reads = (s.tile t.val).reads ∧ u.txns = s.txns ∧
      (u.tile t.val).count cDescBad = satAdd 32 ((s.tile t.val).count cDescBad) 1 := by
  obtain ⟨f, hrow, hf⟩ := exec_gatherRow hwork t
  refine answers_of_quietIssue hi hrow hf hw.toQuiet fun u hu htxns => ?_
  rw [hu]
  exact ⟨hw.reads, htxns, hw.descBad⟩

end

theorem answers_mono {c : Instr} {s : State} {P Q : State → Prop} (h : answers c s P) (hPQ : ∀ u, P u → Q u) : answers c s Q := by
  obtain ⟨u, hu, hP⟩ := h
  exact ⟨u, hu, hPQ u hP⟩

/-- Settles O14: each row's operation by what it records on a sound table, and by its refusal of a malformed one. -/
theorem gatherOpsScheduled : Obligations.GatherOpsScheduled := by
  intro s t q x k idx hi hx hk hidx
  subst hk hidx hx
  refine ⟨fun n ia dst tb ni nr d hq hn htable hdims hlocal hrow => ?_, fun n ia dst tb tl od ni d hq hn htable hdims hrow hmax => ?_,
    fun cb n ia src tb tl od ni d hq hn htable hdims hfmt => ?_, fun n hn hop htable => ?_⟩
  · have h := answers_of_indexes hi (gatherWork_glocal hq) (issueGlocal_indexes _ hn htable hdims hlocal hrow)
    rw [hq] at h
    exact answers_mono h fun u ⟨hreads, htxns, _⟩ => ⟨hreads, htxns⟩
  · have h := answers_of_indexes hi (gatherWork_gremote hq) (issueGremote_indexes _ hn htable hdims hrow hmax)
    rwa [hq] at h
  · have h := answers_of_indexes hi (gatherWork_scatter hq) (issueScatter_indexes _ hn htable hdims hfmt)
    rw [hq] at h
    cases cb <;> exact h
  · rcases hop with ⟨ia, dst, tb, ni, nr, hq⟩ | ⟨ia, dst, tb, tl, od, ni, hq⟩ | ⟨cb, ia, src, tb, tl, od, ni, hq⟩
    · exact answers_of_refuses hi (gatherWork_glocal hq) (issueGlocal_refuses _ _ _ _ _ hn htable)
    · exact answers_of_refuses hi (gatherWork_gremote hq) (issueGremote_refuses _ _ _ _ _ _ _ hn htable)
    · exact answers_of_refuses hi (gatherWork_scatter hq) (issueScatter_refuses _ _ _ _ _ _ _ hn htable cb)

end Sys2Proof.Machine
end
